-- ==== Sys2Proof/Word.lean ====
section
/-! DEFINITION. The plain types of the CKV-2408 and their plainest arithmetic (spec/00_scope.md, 0.5 and 0.6). -/

namespace Sys2Proof

/-- One byte of a packet or of take memory. -/
abbrev Byte := BitVec 8

/-- A 16-bit argument of a packet (R193). -/
abbrev Word16 := BitVec 16

/-- A station link, SL0 to SL3; also the station at its far end. -/
abbrev Link := Fin 4

/-- An input, 0 to 3; input n is carried over link SLn (0.4). -/
abbrev Input := Fin 4

/-- A track, T0 to T7. -/
abbrev TrackId := Fin 8

/-- A layer record, L0 to L47. -/
abbrev LayerId := Fin 48

/-- A page of take memory, 0 to 4 095 (R51). -/
abbrev Page := Fin 4096

/-- One block of one channel: 48 samples, frame 0 first. -/
abbrev Block := List Int

/-- 48 frames of silence (R70). -/
def silence : Block := List.replicate 48 0

/-- A 32-bit counter that wraps. -/
def wrap32 (n : Nat) : Nat := n % 4294967296

/-- A 32-bit counter that saturates at 4 294 967 295. -/
def sat32 (n : Nat) : Nat := min n 4294967295

/-- The distance from block `b` to block `a`, modulo 2^32 (R1). -/
def diff32 (a b : Nat) : Nat := (a + (4294967296 - b % 4294967296)) % 4294967296

/-- Division rounded toward plus infinity, of naturals (0.6). -/
def ceilDiv (a b : Nat) : Nat := (a + b - 1) / b

/-- A value brought within `lo` to `hi` (R184, the clamp). -/
def clampNat (lo hi n : Nat) : Nat := max lo (min hi n)

end Sys2Proof
end

