-- ==== Sys2Proof/Syntax.lean ====
section
/-! DEFINITION. The commands: one constructor per row of spec/opcode_table.json, with the row's operands.
A request's operands are its link, its tag and the raw argument fields of its packet, in packet order (R192, R193). -/

namespace Sys2Proof

/-- The causes of a link error that LINK_ERROR reports (R171). `joinData` is the data character that R172 makes a link
error in JOIN and to which R171 gives no recovery count of its own (log 16). -/
inductive ErrorCause where
  | parity
  | breakChar
  | badCode
  | strayEnd
  | joinData
deriving DecidableEq, Repr

/-- Which of a reading's hand-offs reach their receiver only after the mix and the account of the reading's block
(R111, R149, R164), and which of two events comes first (R166). -/
structure HandOff where
  /-- the new supply state reaches the mix engine after the mix of the block -/
  supplyLate : Bool
  /-- the new thermal state reaches the mix engine after the mix of the block -/
  thermalLate : Bool
  /-- the new thermal state reaches the take memory controller after the account of the block -/
  chargeLate : Bool
  /-- THERMAL_STATE is handed to the router before SUPPLY_STATE -/
  thermalFirst : Bool
deriving DecidableEq, Repr

/-- The commands of the hub. -/
inductive Instr where
  | cycleSet (lk : Link) (tag : Byte) (length : Word16) (beats : Byte)
  | tap (lk : Link) (tag : Byte) (beats : Byte)
  | transportStop (lk : Link) (tag : Byte) (quantize : Byte)
  | transportStart (lk : Link) (tag : Byte) (quantize : Byte)
  | songClear (lk : Link) (tag : Byte)
  | passOpen (lk : Link) (tag : Byte) (input track quantize : Byte)
  | passClose (lk : Link) (tag : Byte) (input quantize : Byte)
  | layerUndo (lk : Link) (tag : Byte) (track quantize : Byte)
  | layerRedo (lk : Link) (tag : Byte) (track quantize : Byte)
  | trackMute (lk : Link) (tag : Byte) (track quantize setting : Byte)
  | trackClear (lk : Link) (tag : Byte) (track quantize : Byte)
  | trackErase (lk : Link) (tag : Byte) (track : Byte)
  | trackLevel (lk : Link) (tag : Byte) (track : Byte) (level : Word16)
  | trackRoute (lk : Link) (tag : Byte) (track route : Byte)
  | layerLevel (lk : Link) (tag : Byte) (layer : Byte) (level : Word16)
  | layerPin (lk : Link) (tag : Byte) (layer setting : Byte)
  | bounce (lk : Link) (tag : Byte) (track count mode : Byte)
  | busLevel (lk : Link) (tag : Byte) (bus : Byte) (level : Word16)
  | monitorSet (lk : Link) (tag : Byte) (input : Byte) (nomA nomB takeA takeB : Word16)
  | graceSet (lk : Link) (tag : Byte) (grace : Byte)
  | returnSet (lk : Link) (tag : Byte) (ret : Byte)
  | eventsSet (lk : Link) (tag : Byte) (kinds : BitVec 24)
  | quietSet (lk : Link) (tag : Byte) (setting : Byte)
  | hold (lk : Link) (tag : Byte)
  | resume (lk : Link) (tag : Byte)
  | supplyLimits (lk : Link) (tag : Byte) (thrift critical : Word16)
  | readCycle (lk : Link) (tag : Byte)
  | readTrack (lk : Link) (tag : Byte) (track : Byte)
  | readLayer (lk : Link) (tag : Byte) (layer : Byte)
  | readPool (lk : Link) (tag : Byte)
  | readStation (lk : Link) (tag : Byte) (station : Byte)
  | readHub (lk : Link) (tag : Byte)
  | hubReset (lk : Link) (tag : Byte)
  /-- a request of R184's steps 1 to 3: the packet's bytes from the request code on, and SLK's mark of one grown beyond
  264 bytes -/
  | unknownRequest (lk : Link) (body : List Byte) (overlong : Bool)
  /-- the end of block period N; `order` is the order in which the passes' page claims reach the pool (R56) -/
  | blockBoundary (order : List Input)
  | scheduledStart
  | measureAutoClose
  | openPassEighthBoundary (input : Input)
  | carriedClose (input : Input)
  | passReachesEnd (input : Input)
  | spillBlend (input : Input)
  | cutBackfillEnd (input : Input)
  | dueEntryExecute
  | bounceStrokeComplete
  | bounceQueueAdvance
  | holdEntry
  | drainComplete
  | wakeEnd
  /-- a reading: the battery in mV, the temperature in degrees C (none: the input is open or shorted), the hand-offs -/
  | supplyReading (battery : Nat) (temperature : Option Int) (handOff : HandOff)
  | brownoutEnd (battery : Nat)
  | powerOnReset
  /-- an input block received whole: its stamp and the 144 bytes of its 48 samples (R193) -/
  | inputBlock (lk : Link) (stamp : Byte) (data : List Byte)
  /-- a complete REQUEST packet: its bytes from the request code on (R193) -/
  | requestPacket (lk : Link) (body : List Byte)
  /-- any other hub packet at its END: its bytes after the address byte (R175) -/
  | unknownPacket (lk : Link) (bytes : List Byte)
  | hubPacketFaultEnd (lk : Link)
  /-- a link error; `char` is the character time within the block period, 0 to 1 999 -/
  | linkError (lk : Link) (cause : ErrorCause) (char : Nat)
  | linkSilence (lk : Link) (char : Nat)
  | recoverEnd (lk : Link) (char : Nat)
  /-- `fills` further FILL received in a row -/
  | listenFillCount (lk : Link) (fills : Nat)
  | freshJoin (lk : Link)
  /-- the destination byte of a forward, 0x01 to 0xFE -/
  | forwardRoute (lk : Link) (dest : Byte)
  | broadcastRoute (lk : Link)
  | forwardEnd (lk : Link)
  | forwardFaultEnd (lk : Link)
  | forwardTooLong (lk : Link)
  | transmitStart (lk : Link)
  | transmitEnd (lk : Link)
  | forwardDataByte (lk : Link) (byte : Byte)
deriving DecidableEq, Repr

end Sys2Proof
end

