-- ==== Sys2Proof/WellFormed.lean ====
section
/-! DEFINITION. The well-formed commands: the catalogue of request lengths (R192) and what the operands of the other
commands may be. An ill-formed command is one that no sender of the spec can give. -/

namespace Sys2Proof

/-- The number of argument bytes that the catalogue gives a request code; none: the code is not in the catalogue
(R192). -/
def catalogueArgs (code : Nat) : Option Nat :=
  if code ∈ [0x05, 0x18, 0x19, 0x1B, 0x1E, 0x20, 0x21] then some 0
  else if code ∈ [0x02, 0x03, 0x04, 0x0C, 0x14, 0x15, 0x17, 0x1C, 0x1D, 0x1F] then some 1
  else if code ∈ [0x07, 0x08, 0x09, 0x0B, 0x0E, 0x10] then some 2
  else if code ∈ [0x01, 0x06, 0x0A, 0x0D, 0x0F, 0x11, 0x12, 0x16] then some 3
  else if code = 0x1A then some 4
  else if code = 0x13 then some 9
  else none

/-- A packet that passes steps 1 to 3 of R184: its header whole, its code in the catalogue, its length the catalogue's. -/
def headerAccepts (body : List Byte) (overlong : Bool) : Bool :=
  match overlong, body with
  | false, code :: _ :: args => catalogueArgs code.toNat = some args.length
  | _, _ => false

/-- No input twice. -/
def distinctInputs : List Input → Bool
  | [] => true
  | i :: rest => !rest.contains i && distinctInputs rest

/-- A character time within a block period. -/
def charInPeriod (char : Nat) : Bool := char < 2000

/-- The command is well-formed. -/
def Instr.wellFormed : Instr → Bool
  | .unknownRequest _ body overlong => !headerAccepts body overlong && body.length ≤ 262
  | .blockBoundary order => distinctInputs order
  | .linkError _ _ char => charInPeriod char
  | .linkSilence _ char => charInPeriod char
  | .recoverEnd _ char => charInPeriod char
  | .unknownPacket _ bytes =>
    match bytes with
    | t :: _ => t ≠ 0x01 && (t ≠ 0x02 || bytes.length ≠ 146)
    | [] => true
  | .inputBlock _ _ data => data.length = 144
  | .forwardRoute _ dest => dest ≠ 0x00 && dest ≠ 0xFF
  | .cycleSet .. => true
  | .tap .. => true
  | .transportStop .. => true
  | .transportStart .. => true
  | .songClear .. => true
  | .passOpen .. => true
  | .passClose .. => true
  | .layerUndo .. => true
  | .layerRedo .. => true
  | .trackMute .. => true
  | .trackClear .. => true
  | .trackErase .. => true
  | .trackLevel .. => true
  | .trackRoute .. => true
  | .layerLevel .. => true
  | .layerPin .. => true
  | .bounce .. => true
  | .busLevel .. => true
  | .monitorSet .. => true
  | .graceSet .. => true
  | .returnSet .. => true
  | .eventsSet .. => true
  | .quietSet .. => true
  | .hold .. => true
  | .resume .. => true
  | .supplyLimits .. => true
  | .readCycle .. => true
  | .readTrack .. => true
  | .readLayer .. => true
  | .readPool .. => true
  | .readStation .. => true
  | .readHub .. => true
  | .hubReset .. => true
  | .scheduledStart => true
  | .measureAutoClose => true
  | .openPassEighthBoundary _ => true
  | .carriedClose _ => true
  | .passReachesEnd _ => true
  | .spillBlend _ => true
  | .cutBackfillEnd _ => true
  | .dueEntryExecute => true
  | .bounceStrokeComplete => true
  | .bounceQueueAdvance => true
  | .holdEntry => true
  | .drainComplete => true
  | .wakeEnd => true
  | .supplyReading .. => true
  | .brownoutEnd _ => true
  | .powerOnReset => true
  | .requestPacket .. => true
  | .hubPacketFaultEnd _ => true
  | .listenFillCount .. => true
  | .freshJoin _ => true
  | .broadcastRoute _ => true
  | .forwardEnd _ => true
  | .forwardFaultEnd _ => true
  | .forwardTooLong _ => true
  | .transmitStart _ => true
  | .transmitEnd _ => true
  | .forwardDataByte .. => true

end Sys2Proof
end

