-- ==== Sys2Proof/Decode.lean ====
section
/-! DEFINITION. The request that a packet spells (R184, R192, R193), total on any bytes, and the packet that spells a
request. The opcode table gives no row bits, so a table word spells no command. -/

namespace Sys2Proof

/-! ## Little-endian fields (R193) -/

def word16 (lo hi : Byte) : Word16 := hi ++ lo

def lowByte (w : Word16) : Byte := w.extractLsb' 0 8

def highByte (w : Word16) : Byte := w.extractLsb' 8 8

def kinds24 (a b c : Byte) : BitVec 24 := c ++ (b ++ a)

def kindByte (m : BitVec 24) (k : Nat) : Byte := m.extractLsb' (8 * k) 8

/-! ## Decoding, by the number of argument bytes -/

def decode0 (lk : Link) (tag : Byte) (code : Nat) : Option Instr :=
  if code = 0x05 then some (.songClear lk tag)
  else if code = 0x18 then some (.hold lk tag)
  else if code = 0x19 then some (.resume lk tag)
  else if code = 0x1B then some (.readCycle lk tag)
  else if code = 0x1E then some (.readPool lk tag)
  else if code = 0x20 then some (.readHub lk tag)
  else if code = 0x21 then some (.hubReset lk tag)
  else none

def decode1 (lk : Link) (tag : Byte) (code : Nat) (a : Byte) : Option Instr :=
  if code = 0x02 then some (.tap lk tag a)
  else if code = 0x03 then some (.transportStop lk tag a)
  else if code = 0x04 then some (.transportStart lk tag a)
  else if code = 0x0C then some (.trackErase lk tag a)
  else if code = 0x14 then some (.graceSet lk tag a)
  else if code = 0x15 then some (.returnSet lk tag a)
  else if code = 0x17 then some (.quietSet lk tag a)
  else if code = 0x1C then some (.readTrack lk tag a)
  else if code = 0x1D then some (.readLayer lk tag a)
  else if code = 0x1F then some (.readStation lk tag a)
  else none

def decode2 (lk : Link) (tag : Byte) (code : Nat) (a b : Byte) : Option Instr :=
  if code = 0x07 then some (.passClose lk tag a b)
  else if code = 0x08 then some (.layerUndo lk tag a b)
  else if code = 0x09 then some (.layerRedo lk tag a b)
  else if code = 0x0B then some (.trackClear lk tag a b)
  else if code = 0x0E then some (.trackRoute lk tag a b)
  else if code = 0x10 then some (.layerPin lk tag a b)
  else none

def decode3 (lk : Link) (tag : Byte) (code : Nat) (a b c : Byte) : Option Instr :=
  if code = 0x01 then some (.cycleSet lk tag (word16 a b) c)
  else if code = 0x06 then some (.passOpen lk tag a b c)
  else if code = 0x0A then some (.trackMute lk tag a b c)
  else if code = 0x0D then some (.trackLevel lk tag a (word16 b c))
  else if code = 0x0F then some (.layerLevel lk tag a (word16 b c))
  else if code = 0x11 then some (.bounce lk tag a b c)
  else if code = 0x12 then some (.busLevel lk tag a (word16 b c))
  else if code = 0x16 then some (.eventsSet lk tag (kinds24 a b c))
  else none

/-- The request of a packet that passes steps 1 to 3 of R184. -/
def decodeArgs (lk : Link) (tag : Byte) (code : Nat) (args : List Byte) : Option Instr :=
  match args with
  | [] => decode0 lk tag code
  | [a] => decode1 lk tag code a
  | [a, b] => decode2 lk tag code a b
  | [a, b, c] => decode3 lk tag code a b c
  | [a, b, c, d] => if code = 0x1A then some (.supplyLimits lk tag (word16 a b) (word16 c d)) else none
  | [a, b, c, d, e, f, g, h, i] =>
    if code = 0x13 then some (.monitorSet lk tag a (word16 b c) (word16 d e) (word16 f g) (word16 h i)) else none
  | _ => none

/-- The command that takes a request packet: its bytes from the request code on, and the mark of one grown beyond 264
bytes (R184). -/
def decodeRequest (lk : Link) (body : List Byte) (overlong : Bool) : Instr :=
  match overlong, body with
  | false, code :: tag :: args => (decodeArgs lk tag code.toNat args).getD (.unknownRequest lk body overlong)
  | _, _ => .unknownRequest lk body overlong

/-! ## Encoding -/

/-- The bytes of the packet of a request, from the request code on (R192, R193); none: the command is no request. -/
def requestBody : Instr → Option (List Byte)
  | .cycleSet _ tag length beats => some [0x01, tag, lowByte length, highByte length, beats]
  | .tap _ tag beats => some [0x02, tag, beats]
  | .transportStop _ tag q => some [0x03, tag, q]
  | .transportStart _ tag q => some [0x04, tag, q]
  | .songClear _ tag => some [0x05, tag]
  | .passOpen _ tag i t q => some [0x06, tag, i, t, q]
  | .passClose _ tag i q => some [0x07, tag, i, q]
  | .layerUndo _ tag t q => some [0x08, tag, t, q]
  | .layerRedo _ tag t q => some [0x09, tag, t, q]
  | .trackMute _ tag t q x => some [0x0A, tag, t, q, x]
  | .trackClear _ tag t q => some [0x0B, tag, t, q]
  | .trackErase _ tag t => some [0x0C, tag, t]
  | .trackLevel _ tag t v => some [0x0D, tag, t, lowByte v, highByte v]
  | .trackRoute _ tag t r => some [0x0E, tag, t, r]
  | .layerLevel _ tag l v => some [0x0F, tag, l, lowByte v, highByte v]
  | .layerPin _ tag l x => some [0x10, tag, l, x]
  | .bounce _ tag t j m => some [0x11, tag, t, j, m]
  | .busLevel _ tag b v => some [0x12, tag, b, lowByte v, highByte v]
  | .monitorSet _ tag i a b c d =>
    some [0x13, tag, i, lowByte a, highByte a, lowByte b, highByte b, lowByte c, highByte c, lowByte d, highByte d]
  | .graceSet _ tag g => some [0x14, tag, g]
  | .returnSet _ tag r => some [0x15, tag, r]
  | .eventsSet _ tag m => some [0x16, tag, kindByte m 0, kindByte m 1, kindByte m 2]
  | .quietSet _ tag x => some [0x17, tag, x]
  | .hold _ tag => some [0x18, tag]
  | .resume _ tag => some [0x19, tag]
  | .supplyLimits _ tag t k => some [0x1A, tag, lowByte t, highByte t, lowByte k, highByte k]
  | .readCycle _ tag => some [0x1B, tag]
  | .readTrack _ tag t => some [0x1C, tag, t]
  | .readLayer _ tag l => some [0x1D, tag, l]
  | .readPool _ tag => some [0x1E, tag]
  | .readStation _ tag n => some [0x1F, tag, n]
  | .readHub _ tag => some [0x20, tag]
  | .hubReset _ tag => some [0x21, tag]
  | .unknownRequest _ body _ => some body
  | .blockBoundary _ => none
  | .scheduledStart => none
  | .measureAutoClose => none
  | .openPassEighthBoundary _ => none
  | .carriedClose _ => none
  | .passReachesEnd _ => none
  | .spillBlend _ => none
  | .cutBackfillEnd _ => none
  | .dueEntryExecute => none
  | .bounceStrokeComplete => none
  | .bounceQueueAdvance => none
  | .holdEntry => none
  | .drainComplete => none
  | .wakeEnd => none
  | .supplyReading _ _ _ => none
  | .brownoutEnd _ => none
  | .powerOnReset => none
  | .inputBlock _ _ _ => none
  | .requestPacket _ _ => none
  | .unknownPacket _ _ => none
  | .hubPacketFaultEnd _ => none
  | .linkError _ _ _ => none
  | .linkSilence _ _ => none
  | .recoverEnd _ _ => none
  | .listenFillCount _ _ => none
  | .freshJoin _ => none
  | .forwardRoute _ _ => none
  | .broadcastRoute _ => none
  | .forwardEnd _ => none
  | .forwardFaultEnd _ => none
  | .forwardTooLong _ => none
  | .transmitStart _ => none
  | .transmitEnd _ => none
  | .forwardDataByte _ _ => none

/-- The link a request comes from. -/
def requestLink : Instr → Option Link
  | .cycleSet lk .. => some lk
  | .tap lk .. => some lk
  | .transportStop lk .. => some lk
  | .transportStart lk .. => some lk
  | .songClear lk .. => some lk
  | .passOpen lk .. => some lk
  | .passClose lk .. => some lk
  | .layerUndo lk .. => some lk
  | .layerRedo lk .. => some lk
  | .trackMute lk .. => some lk
  | .trackClear lk .. => some lk
  | .trackErase lk .. => some lk
  | .trackLevel lk .. => some lk
  | .trackRoute lk .. => some lk
  | .layerLevel lk .. => some lk
  | .layerPin lk .. => some lk
  | .bounce lk .. => some lk
  | .busLevel lk .. => some lk
  | .monitorSet lk .. => some lk
  | .graceSet lk .. => some lk
  | .returnSet lk .. => some lk
  | .eventsSet lk .. => some lk
  | .quietSet lk .. => some lk
  | .hold lk .. => some lk
  | .resume lk .. => some lk
  | .supplyLimits lk .. => some lk
  | .readCycle lk .. => some lk
  | .readTrack lk .. => some lk
  | .readLayer lk .. => some lk
  | .readPool lk .. => some lk
  | .readStation lk .. => some lk
  | .readHub lk .. => some lk
  | .hubReset lk .. => some lk
  | .unknownRequest lk .. => some lk
  | _ => none

/-- SLK's mark of a packet grown beyond 264 bytes; only a request refused for its header carries it (R184). -/
def requestOverlong : Instr → Bool
  | .unknownRequest _ _ overlong => overlong
  | _ => false

/-! ## Table words -/

/-- The command that a word spells by the table's bits: the table gives no row bits. -/
def decodeTableWord (_nbits _w : Nat) : Option Instr := none

end Sys2Proof
end

