-- ==== Sys2Proof/Config.lean ====
section
/-! DEFINITION. The free values: constants without a body, for the values the spec leaves open.
Each is applied to the free-value counter that State holds and every use advances. -/

namespace Sys2Proof.Config

/-- How many bytes of a closed forward had been passed on, before the bound by what was received (R177, log 14). -/
opaque freePassedOn : Nat → Nat

/-- Which of the five recovery counts (0 to 4) rises for a data character received in JOIN; any other value: none
(R171, R172, log 16). -/
opaque freeJoinCause : Nat → Nat

/-- Whether HUB_RESTARTED is queued before the HOLD_STATE of the same reset (R188, log 21). -/
opaque freeRestartedFirst : Nat → Bool

end Sys2Proof.Config
end

