-- ==== Sys2Proof/Machine/State.lean ====
section
/-! DEFINITION. The state of the hub: every piece of state the spec gives its eleven blocks, as plain data, and its
values after power-on reset. Each structure is one block of spec/00_scope.md 0.3. -/

namespace Sys2Proof.Machine

/-! ## Why a step stops -/

/-- The reasons for a fault. There is none: the spec names no condition on which the hub stops with an error, take memory
cannot be addressed outside its 4 096 pages (`Page` is bounded), and no meaning raises one. -/
inductive Fault where
deriving DecidableEq, Repr

/-- The reasons for a refusal. -/
inductive Refusal where
  /-- raised by `exec` for a command that has no meaning yet (no arm does); safe: no claim about it can be proved -/
  | notModelled (mnemonic : String)
deriving DecidableEq, Repr

/-! ## The cycle clock, CYC (chapter 1) -/

/-- The timeline states (R2). -/
inductive TlState where
  | unset
  | counting
  | measuring
  | running
  | paused
deriving DecidableEq, Repr

/-- The fields every event carries besides its kind (R189): C mod 64, the position while RUNNING or PAUSED, the stamp. -/
structure BlockInfo where
  count64 : Nat
  pos : Option Nat
  stamp : Nat
deriving DecidableEq, Repr

/-- The timeline record (section 1.2) and the run-out positions of the current block (R18). -/
structure Cyc where
  state : TlState
  /-- cycle length L -/
  len : Option Nat
  /-- beats in use B -/
  beats : Option Nat
  /-- the beats setting -/
  setting : Nat
  /-- position p -/
  pos : Option Nat
  /-- cycle count C -/
  count : Nat
  /-- hub block number N -/
  block : Nat
  /-- tap intervals, oldest first -/
  taps : List Nat
  lastTap : Option Nat
  schedStart : Option Nat
  /-- measuring start N0 -/
  measureStart : Option Nat
  /-- present in a run-out block: each track's run-out position (R18) -/
  runOut : Option (Vector (Option Nat) 8)
  /-- the model's own: the marks of the current block wait, a stop or a hold of it being certain (R18, log 43) -/
  withheld : Bool
  /-- the model's own: the event fields of the block period last ended (log 9) -/
  last : BlockInfo
deriving DecidableEq, Repr

/-! ## The layer store, LYS (chapter 2) -/

/-- The track states (R23). -/
inductive TrackState where
  | empty
  | opening
  | looping
deriving DecidableEq, Repr

/-- A track's route (R45). -/
inductive Route where
  | none
  | a
  | b
  | both
deriving DecidableEq, Repr

/-- A track record (R23); what its stack and its redo list hold is R29. -/
structure Track where
  state : TrackState
  /-- multiplier k -/
  mult : Option Nat
  /-- anchor a -/
  anchor : Option Nat
  level : Nat
  mute : Bool
  route : Route
  /-- bottom first -/
  stack : List LayerId
  /-- head first -/
  redo : List LayerId
deriving DecidableEq, Repr

/-- The states of a layer record that is not FREE (R25, R26). -/
inductive LayerState where
  | recording
  | live
  | parked
  | forming
deriving DecidableEq, Repr

/-- A layer record that is not FREE (R25). -/
structure Layer where
  state : LayerState
  track : TrackId
  /-- absent for a bounce result -/
  input : Option Input
  /-- absent while the track is OPENING -/
  length : Option Nat
  /-- start position s -/
  start : Nat
  /-- written count n -/
  written : Nat
  /-- the present slots of the page map, ascending -/
  map : List (Nat × Page)
  level : Nat
  pinned : Bool
  serial : Nat
  /-- park stamp, present while PARKED -/
  stamp : Option Nat
deriving DecidableEq, Repr

/-- The layer store: tracks, layer records (none: FREE) and the two counters. -/
structure Lys where
  tracks : Vector Track 8
  layers : Vector (Option Layer) 48
  serials : Nat
  parks : Nat
deriving DecidableEq, Repr

/-! ## The page pool, PGP (chapter 3) -/

/-- The page pool's state (R52); the free count is the length of the free list. -/
structure Pgp where
  /-- the free list, head first -/
  free : List Page
  /-- the bounce reservation, ascending -/
  reserved : List Page
  pinnedTotal : Nat
  low : Bool
  lowest : Nat
  reclaims : Nat
  reclaimedPages : Nat
  starved : Nat
  groupRefusals : Nat
deriving DecidableEq, Repr

/-! ## Inputs and passes, PSE (chapter 4) -/

/-- Pass kinds (R76). -/
inductive PassKind where
  | measure
  | opening
  | fixed
deriving DecidableEq, Repr

/-- The states of an open pass (R75); a record in ENDED is no pass. -/
inductive PassState where
  | writing
  | spillWait
deriving DecidableEq, Repr

/-- Cut causes (R89). -/
inductive CutCause where
  | starved
  | link
  | stop
  | hold
  | closed
deriving DecidableEq, Repr

/-- An open pass (R75). -/
structure Pass where
  state : PassState
  track : TrackId
  kind : PassKind
  layer : LayerId
  /-- start s -/
  start : Nat
  /-- snap distance d -/
  snap : Nat
  /-- the end: where the pass closes -/
  close : Option Nat
  writePos : Nat
  /-- backfill remaining -/
  backfill : Nat
  /-- present only while a cut waits for its backfill -/
  cut : Option CutCause
  /-- opening order -/
  order : Nat
  /-- the model's own: the spill of a pass in SPILL_WAIT has been resolved (log 9) -/
  spillReady : Bool
deriving DecidableEq, Repr

/-- The state of one input (R68, R75). -/
structure InputRec where
  /-- the slot queue: stamp and block -/
  slots : List (Nat × Block)
  present : Bool
  /-- the pre-roll ring, newest block first -/
  ring : List Block
  nomA : Nat
  nomB : Nat
  takeA : Nat
  takeB : Nat
  stored : Nat
  replaced : Nat
  early : Nat
  late : Nat
  dropouts : Nat
  /-- the pass record of the input; none: ENDED -/
  pass : Option Pass
  /-- the model's own: a pass of this input ended in the current block, which it still counts in (R75, log 13) -/
  endedHere : Bool
deriving DecidableEq, Repr

structure Pse where
  inputs : Vector InputRec 4
  /-- the opening counter -/
  openings : Nat
deriving DecidableEq, Repr

/-! ## The action queue, AQU (chapter 5) -/

/-- Quantize modes (R94). -/
inductive Quantize where
  | now
  | beat
  | cycle
  | track
deriving DecidableEq, Repr

/-- The seven quantized requests, with their arguments (R94, R100). -/
inductive Action where
  | transportStop
  | passOpen (input : Input) (track : TrackId)
  | passClose (input : Input)
  | layerUndo (track : TrackId)
  | layerRedo (track : TrackId)
  | trackClear (track : TrackId)
  | trackMute (track : TrackId) (on : Bool)
deriving DecidableEq, Repr

/-- A queue entry (R100). -/
structure Entry where
  action : Action
  mode : Quantize
  station : Link
  tag : Byte
  due : Nat
  arrival : Nat
  /-- PASS_CLOSE only: the layer of the pass it was taken against, and that layer's serial -/
  passLayer : Option (LayerId × Nat)
deriving DecidableEq, Repr

structure Aqu where
  /-- front first -/
  queue : List Entry
  arrivals : Nat
  fulls : Nat
deriving DecidableEq, Repr

/-! ## The supply watch, SMN (chapter 9) -/

inductive Supply where
  | normal
  | thrift
  | critical
deriving DecidableEq, Repr

inductive Thermal where
  | cool
  | hot
  | scorch
deriving DecidableEq, Repr

/-- The supply watch's state (R161). -/
structure Smn where
  phase : Nat
  battery : Option Nat
  temperature : Option Int
  supply : Supply
  thermal : Thermal
  /-- thrift limit T -/
  thrift : Nat
  /-- critical limit K -/
  critical : Nat
  lowest : Option Nat
  highest : Option Int
  changes : Nat
  /-- the model's own: the reading of the current phase-99 period has been made (log 24) -/
  readDone : Bool
  /-- the model's own: the reading of the period just ended has not been made yet (log 24) -/
  readOwed : Bool
deriving DecidableEq, Repr

/-! ## The mix engine, MXE (chapter 6) -/

/-- An entry of the played-voice set (R110). -/
structure Played where
  layer : LayerId
  serial : Nat
  track : TrackId
  layerLevel : Nat
  trackLevel : Nat
  route : Route
  rank : Nat
deriving DecidableEq, Repr

/-- The last mix record (R110, R119). -/
structure MixRecord where
  candidates : Nat
  cap : Nat
  admitted : Nat
  leaving : Nat
  read : Nat
deriving DecidableEq, Repr

structure Mxe where
  levelA : Nat
  levelB : Nat
  /-- the played-voice set, in rank order -/
  played : List Played
  shed : Bool
  clipA : Nat
  clipB : Nat
  lastClipA : Option Nat
  lastClipB : Option Nat
  hardStops : Nat
  shedBlocks : Nat
  lastMix : MixRecord
  /-- the supply state the mix engine holds (R111, R164) -/
  supply : Supply
  /-- the thermal state the mix engine holds, for the refresh charge in its cap (R111, R164) -/
  thermal : Thermal
deriving DecidableEq, Repr

/-! ## The bounce engine, BNE (chapter 7) -/

inductive Engine where
  | idle
  | scanning
  | committing
  | suspended
deriving DecidableEq, Repr

inductive BounceMode where
  | scan
  | commit
deriving DecidableEq, Repr

/-- A bounce source (R132). -/
structure Source where
  layer : LayerId
  serial : Nat
  level : Nat
deriving DecidableEq, Repr

/-- The active bounce record (R132). -/
structure Bounce where
  track : TrackId
  count : Nat
  mode : BounceMode
  station : Link
  tag : Byte
  owed : Bool
  /-- bottom of the stack first -/
  sources : List Source
  dest : Option LayerId
  total : Nat
  done : Nat
  /-- the stroke in flight: its index and its cost -/
  stroke : Option (Nat × Nat)
  peak : Nat
  clips : Nat
  suspendPending : Bool
deriving DecidableEq, Repr

/-- A waiting-list entry (R132). -/
structure Waiting where
  track : TrackId
  count : Nat
  mode : BounceMode
  station : Link
  tag : Byte
deriving DecidableEq, Repr

structure Bne where
  engine : Engine
  active : Option Bounce
  waiting : List Waiting
  /-- the stroke buffer, 32 blocks -/
  buffer : List Block
deriving DecidableEq, Repr

/-! ## The take memory controller, TMC (chapter 8) -/

inductive MemState where
  | active
  | draining
  | retaining
  | waking
deriving DecidableEq, Repr

inductive HoldCause where
  | request
  | critical
  | scorch
deriving DecidableEq, Repr

inductive WakeCause where
  | resume
  | reset
deriving DecidableEq, Repr

/-- The transfer account of one block (R148). -/
structure Account where
  writes : Nat
  refresh : Nat
  voices : Nat
  spare : Nat
deriving DecidableEq, Repr

structure Tmc where
  mem : MemState
  holdCause : Option HoldCause
  holdStation : Option Link
  holdEntry : Option Nat
  wakeCause : Option WakeCause
  wakeEnd : Option Nat
  /-- refresh charge -/
  refresh : Nat
  /-- bounce credit -/
  credit : Nat
  account : Account
  holds : Nat
  drained : Nat
  stalls : Nat
  /-- a trigger handed by the supply watch and not yet taken: its cause, and the block of its reading (R152) -/
  trigger : Option (HoldCause × Nat)
deriving DecidableEq, Repr

/-! ## Replies and events (chapter 11) -/

/-- Reply codes (R192). -/
inductive ReplyCode where
  | ok
  | queued
  | done
  | withdrawn
  | cancelled
  | busy
  | badArg
  | unknown
  | malformed
  | wrongState
  | held
  | stackFull
  | redoFull
  | noLayer
  | noRoom
  | pinLimit
  | pinned
  | bouncing
  | queueFull
  | trackOpening
  | inputBusy
  | noPass
  | nothing
  | cooling
  | lowSupply
deriving DecidableEq, Repr

/-- Reply payloads (R194). `record` holds a read-back record, already encoded. -/
inductive Payload where
  | none
  | queued (due distance arrival : Nat)
  | bounce (peak clips : Nat) (dest : Option (LayerId × Nat))
  | limits (thrift critical : Nat)
  | record (bytes : List Byte)
deriving DecidableEq, Repr

/-- A reply (R185, R193). `reception` marks a reception reply (R176). -/
structure Reply where
  /-- the request code, 0 when unreadable -/
  request : Byte
  tag : Option Byte
  completion : Bool
  code : ReplyCode
  stamp : Nat
  payload : Payload
  reception : Bool
deriving DecidableEq, Repr

/-- Event kinds (R192). -/
inductive EventKind where
  | cycleMark
  | beatMark
  | passStarted
  | passEnded
  | layerReclaimed
  | poolLow
  | bounceEnded
  | busClip
  | voiceShed
  | inputDropout
  | linkState
  | supplyState
  | thermalState
  | holdState
  | hubRestarted
  | quietSummary
  | routeFail
deriving DecidableEq, Repr

inductive PassOutcome where
  | complete
  | cut
  | aborted
deriving DecidableEq, Repr

/-- The need that starts a reclaim run (R58, R59). -/
inductive Need where
  | page
  | snap
  | record
  | bounce
deriving DecidableEq, Repr

inductive BounceAbort where
  | undo
  | clear
  | erase
  | songClear
deriving DecidableEq, Repr

inductive Bus where
  | a
  | b
deriving DecidableEq, Repr

/-- Link states (R172). -/
inductive LinkState where
  | listen
  | join
  | run
  | recover
deriving DecidableEq, Repr

/-- The causes of a link error that have a recovery count (R171, R172). -/
inductive RecoveryCause where
  | parity
  | silence
  | breakChar
  | badCode
  | strayEnd
deriving DecidableEq, Repr

/-- Route failure reasons (R177, R178). -/
inductive RouteReason where
  | noSuch
  | self
  | down
  | busy
  | tooLong
deriving DecidableEq, Repr

/-- What an event says: its kind and its own fields. -/
inductive EventBody where
  /-- R16 -/
  | cycleMark (len beats : Nat)
  /-- R16 -/
  | beatMark (index : Nat)
  /-- R92 -/
  | passStarted (input : Input) (track : TrackId) (layer : LayerId) (serial : Nat) (kind : PassKind) (start snap : Nat)
  /-- R92 -/
  | passEnded (input : Input) (track : TrackId) (layer : LayerId) (serial : Nat) (kind : PassKind) (start : Nat)
      (outcome : PassOutcome) (cause : Option CutCause) (written : Nat) (mult len : Option Nat)
  /-- R59 -/
  | layerReclaimed (layer : LayerId) (track : TrackId) (serial stamp pages : Nat) (need : Need) (free : Nat)
  /-- R65 -/
  | poolLow (on : Bool) (free : Nat)
  /-- R140 -/
  | bounceEnded (track : TrackId) (count : Nat) (mode : BounceMode) (cause : Option BounceAbort) (station : Link)
      (done total peak clips : Nat) (dest : Option (LayerId × Nat))
  /-- R125 -/
  | busClip (bus : Bus) (count frames peak : Nat)
  /-- R120 -/
  | voiceShed (on : Bool) (candidates cap admitted : Nat)
  /-- R70 -/
  | inputDropout (input : Input) (count : Nat)
  /-- R173, R174: no cause when the link enters RUN -/
  | linkState (link : Link) (state : LinkState) (cause : Option RecoveryCause)
  /-- R166 -/
  | supplyState (new old : Supply) (reading thrift critical : Nat) (hold : Bool)
  /-- R166 -/
  | thermalState (new old : Thermal) (reading : Int) (hold : Bool)
  /-- R159, at hold entry -/
  | holdDraining (cause : HoldCause) (station : Option Link) (supply : Supply) (thermal : Thermal) (timeline : TlState)
  /-- R159, at the first RETAINING block -/
  | holdRetaining (cause : Option HoldCause) (drained : Nat) (engine : Engine)
  /-- R159, at the first ACTIVE block -/
  | holdActive (cause : WakeCause) (timeline : TlState)
  /-- R188 -/
  | hubRestarted (station : Link) (block : Nat) (mem : MemState)
  /-- R191 -/
  | quietSummary (kinds : List EventKind)
  /-- R177 -/
  | routeFail (reason : RouteReason) (dest : Byte) (links : List Link) (passedOn : Nat)
deriving DecidableEq, Repr

/-- An event in a station's event queue (R189, R193). -/
structure Event where
  body : EventBody
  info : BlockInfo
  missed : Bool
  urgent : Bool
deriving DecidableEq, Repr

/-! ## The station links, SLK (chapter 10) -/

/-- A request packet in a request queue: its bytes from the request code on, and the mark of one grown beyond 264 bytes
(R175). -/
structure ReqPacket where
  body : List Byte
  overlong : Bool
deriving DecidableEq, Repr

/-- A return block (R127, R193). -/
structure ReturnBlock where
  bus : Bus
  stamp : Nat
  samples : Block
deriving DecidableEq, Repr

/-- A forwarded packet in a forward slot (R177). -/
structure FwdSlot where
  source : Link
  /-- the destination byte as the source sent it -/
  dest : Byte
  /-- the source address, then the data bytes received -/
  bytes : List Byte
  /-- the END has been received -/
  complete : Bool
  /-- its transmission has begun -/
  begun : Bool
  /-- the broadcast it is a copy of -/
  group : Option Nat
deriving DecidableEq, Repr

/-- A forward in progress on its source link: its destination byte, the copies still open (link and slot), the bytes
received after the address (R177 to R179). -/
structure Forwarding where
  dest : Byte
  copies : List (Link × Fin 2)
  received : Nat
  group : Option Nat
deriving DecidableEq, Repr

/-- The receive assembly of a link (R172). -/
inductive Assembly where
  | outside
  /-- a hub packet in progress: its bytes after the address byte, up to 263, and the mark of one grown beyond 264 (R175) -/
  | hub (bytes : List Byte) (overlong : Bool)
  | forward (f : Forwarding)
  /-- the rest of a packet is passed over until its END or FAULT_END -/
  | passOver
deriving DecidableEq, Repr

/-- The packet a transmitter is sending (R180). -/
inductive TxPacket where
  /-- a packet of the hub's own, as its bytes (R193) -/
  | hub (bytes : List Byte)
  /-- the packet of a forward slot -/
  | forward (slot : Fin 2)
deriving DecidableEq, Repr

/-- The model's own output field: how the last packet on a link's line ended (log 29). -/
inductive LineEnd where
  | none
  | ended
  | faultEnded
  | abandoned
deriving DecidableEq, Repr

/-- The counters of a link and of its station (R172). -/
structure LinkCounters where
  joins : Nat
  parity : Nat
  silence : Nat
  breaks : Nat
  badCode : Nat
  strayEnd : Nat
deriving DecidableEq, Repr

structure StationCounters where
  queued : Nat
  busy : Nat
  unknown : Nat
  malformed : Nat
  faultEnded : Nat
  unanswered : Nat
  forwardedFrom : Nat
  routeFails : Nat
  forwardedTo : Nat
  skips : Nat
deriving DecidableEq, Repr

/-- A link record (R172). -/
structure LinkRec where
  state : LinkState
  bringUp : Nat
  /-- the time RECOVER ends, in character times (log 17) -/
  recoverEnd : Option Nat
  assembly : Assembly
  requests : List ReqPacket
  replies : List Reply
  events : List Event
  ret : Option ReturnBlock
  fwd : Vector (Option FwdSlot) 2
  tx : Option TxPacket
  /-- last forward slot served: 0 the first, 1 the second -/
  lastFwd : Fin 2
  counters : LinkCounters
  station : StationCounters
  lineEnd : LineEnd
deriving DecidableEq, Repr

/-- A broadcast whose copies have not all ended (R179). -/
structure Broadcast where
  group : Nat
  source : Link
  /-- a copy has been sent whole -/
  whole : Bool
deriving DecidableEq, Repr

structure Slk where
  links : Vector LinkRec 4
  broadcasts : List Broadcast
  nextGroup : Nat
deriving DecidableEq, Repr

/-! ## The request unit and event router, RQU and EVR (chapter 11) -/

/-- A station's return setting (R128). -/
inductive ReturnSetting where
  | none
  | a
  | b
deriving DecidableEq, Repr

/-- A station's settings (R186). -/
structure Settings where
  grace : Nat
  /-- the subscriptions, ascending by code -/
  subs : List EventKind
  ret : ReturnSetting
  quiet : Bool
  /-- the pending-kinds set, ascending by code -/
  pendingKinds : List EventKind
  missed : Bool
  dropped : Nat
deriving DecidableEq, Repr

structure Rqu where
  /-- the round-robin pointer: the last link served -/
  pointer : Link
  stations : Vector Settings 4
deriving DecidableEq, Repr

/-! ## The hub -/

/-- The state of the hub, with the queue of the commands that wait. -/
structure State where
  cyc : Cyc
  lys : Lys
  pgp : Pgp
  pse : Pse
  aqu : Aqu
  mxe : Mxe
  bne : Bne
  tmc : Tmc
  smn : Smn
  slk : Slk
  rqu : Rqu
  /-- take memory (R51): byte address and byte, addresses rising, no byte equal to 0 -/
  mem : List Host.Cell
  /-- the hub is stopped by a brownout (R168) -/
  stopped : Bool
  /-- the free-value counter (log 31) -/
  freeIndex : Nat
  /-- the commands that wait, first in, first out -/
  pending : List Instr
deriving DecidableEq, Repr

/-! ## Power-on reset -/

/-- The timeline record after power-on reset (section 1.2). -/
def Cyc.reset : Cyc where
  state := .unset
  len := none
  beats := none
  setting := 4
  pos := none
  count := 0
  block := 0
  taps := []
  lastTap := none
  schedStart := none
  measureStart := none
  runOut := none
  withheld := false
  last := ⟨0, none, 0⟩

/-- A track record after reset (R23). -/
def Track.reset : Track := ⟨.empty, none, none, 256, false, .both, [], []⟩

/-- The layer store after reset (R50). -/
def Lys.reset : Lys := ⟨Vector.replicate 8 Track.reset, Vector.replicate 48 none, 0, 0⟩

/-- The page pool after reset (R52, R67). -/
def Pgp.reset : Pgp where
  free := (List.range 4096).map (Fin.ofNat 4096)
  reserved := []
  pinnedTotal := 0
  low := false
  lowest := 4096
  reclaims := 0
  reclaimedPages := 0
  starved := 0
  groupRefusals := 0

/-- An input after reset (R68, R93). -/
def InputRec.reset : InputRec where
  slots := []
  present := false
  ring := List.replicate 256 silence
  nomA := 256
  nomB := 256
  takeA := 256
  takeB := 256
  stored := 0
  replaced := 0
  early := 0
  late := 0
  dropouts := 0
  pass := none
  endedHere := false

/-- The pass engine after reset (R93). -/
def Pse.reset : Pse := ⟨Vector.replicate 4 InputRec.reset, 0⟩

/-- The action queue after power-on reset (R108). -/
def Aqu.reset : Aqu := ⟨[], 0, 0⟩

/-- The mix engine after reset (R110, R131). -/
def Mxe.reset : Mxe where
  levelA := 256
  levelB := 256
  played := []
  shed := false
  clipA := 0
  clipB := 0
  lastClipA := none
  lastClipB := none
  hardStops := 0
  shedBlocks := 0
  lastMix := ⟨0, 0, 0, 0, 0⟩
  supply := .normal
  thermal := .cool

/-- The bounce engine after reset (R132); the stroke buffer's contents are a DESIGN CHOICE (log 7). -/
def Bne.reset : Bne := ⟨.idle, none, [], List.replicate 32 silence⟩

/-- The take memory controller after power-on reset (R147). -/
def Tmc.reset : Tmc where
  mem := .active
  holdCause := none
  holdStation := none
  holdEntry := none
  wakeCause := none
  wakeEnd := none
  refresh := 2
  credit := 0
  account := ⟨0, 0, 0, 0⟩
  holds := 0
  drained := 0
  stalls := 0
  trigger := none

/-- The supply watch after power-on reset (R161). -/
def Smn.reset : Smn where
  phase := 0
  battery := none
  temperature := none
  supply := .normal
  thermal := .cool
  thrift := 6600
  critical := 6000
  lowest := none
  highest := none
  changes := 0
  readDone := false
  readOwed := false

def LinkCounters.zero : LinkCounters := ⟨0, 0, 0, 0, 0, 0⟩

def StationCounters.zero : StationCounters := ⟨0, 0, 0, 0, 0, 0, 0, 0, 0, 0⟩

/-- A link record after power-on reset (R172). -/
def LinkRec.reset : LinkRec where
  state := .listen
  bringUp := 0
  recoverEnd := none
  assembly := .outside
  requests := []
  replies := []
  events := []
  ret := none
  fwd := Vector.replicate 2 none
  tx := none
  lastFwd := 1
  counters := LinkCounters.zero
  station := StationCounters.zero
  lineEnd := .none

/-- The links after power-on reset (R182). -/
def Slk.reset : Slk := ⟨Vector.replicate 4 LinkRec.reset, [], 0⟩

/-- A station's default settings (R186). -/
def Settings.reset : Settings := ⟨80, [], .none, false, [], false, 0⟩

/-- The request unit and event router after power-on reset (R183, R186). -/
def Rqu.reset : Rqu := ⟨3, Vector.replicate 4 Settings.reset⟩

/-- The hub right after power-on reset. -/
def State.reset : State where
  cyc := Cyc.reset
  lys := Lys.reset
  pgp := Pgp.reset
  pse := Pse.reset
  aqu := Aqu.reset
  mxe := Mxe.reset
  bne := Bne.reset
  tmc := Tmc.reset
  smn := Smn.reset
  slk := Slk.reset
  rqu := Rqu.reset
  mem := []
  stopped := false
  freeIndex := 0
  pending := []

end Sys2Proof.Machine
end

