-- ==== Sys2Proof/Machine/Memory.lean ====
section
/-! DEFINITION. Take memory (R51) as a list of cells in one canonical form, blocks and samples as its bytes, and the
fixed-point arithmetic of a block's samples. -/

namespace Sys2Proof.Machine

/-! ## Take memory -/

/-- What a byte nothing has written reads as: 0 (DESIGN CHOICE, log 6). -/
def unlistedByte : Byte := 0

/-- The bytes of take memory: 4 096 pages of 36 864 bytes (R51). -/
def takeBytes : Nat := 150994944

/-- The canonical form: addresses strictly rising from `lo` and inside take memory, no cell equal to an unlisted byte. -/
def Memory.wfFrom : Nat → List Host.Cell → Bool
  | _, [] => true
  | lo, (a, b) :: rest => lo ≤ a && a < takeBytes && b != unlistedByte && Memory.wfFrom (a + 1) rest

/-- Take memory is in its canonical form. -/
def Memory.wf (m : List Host.Cell) : Bool := Memory.wfFrom 0 m

/-- The byte at one address. -/
def readByte : List Host.Cell → Nat → Byte
  | [], _ => unlistedByte
  | (a, b) :: rest, x => if a = x then b else readByte rest x

/-- The cells that hold `bs` from address `a` on. -/
def cellsOf : Nat → List Byte → List Host.Cell
  | _, [] => []
  | a, b :: bs => if b = unlistedByte then cellsOf (a + 1) bs else (a, b) :: cellsOf (a + 1) bs

/-- The bytes `bs` written from address `a` on. -/
def writeBytes (m : List Host.Cell) (a : Nat) (bs : List Byte) : List Host.Cell :=
  m.filter (fun c => c.1 < a) ++ (cellsOf a bs ++ m.filter (fun c => a + bs.length ≤ c.1))

/-- The `n` bytes from address `a` on. -/
def readBytes (m : List Host.Cell) (a n : Nat) : List Byte :=
  let window := m.filter (fun c => a ≤ c.1 && c.1 < a + n)
  (List.range n).map fun i => readByte window (a + i)

/-- The address of the block at place `j` of page `p` (R51); a place is 0 to 255. -/
def blockAddr (p : Page) (j : Nat) : Nat := p.val * 36864 + (j % 256) * 144

/-! ## Samples and blocks as bytes -/

/-- The three bytes of a sample, little-endian two's complement (R193; in take memory a DESIGN CHOICE, log 6). -/
def sampleBytes (x : Int) : List Byte :=
  let n := (x % 16777216).toNat
  [BitVec.ofNat 8 n, BitVec.ofNat 8 (n / 256), BitVec.ofNat 8 (n / 65536)]

/-- The sample of three bytes. -/
def bytesSample (b0 b1 b2 : Byte) : Int :=
  let n := b0.toNat + 256 * b1.toNat + 65536 * b2.toNat
  if n < 8388608 then (n : Int) else (n : Int) - 16777216

/-- The samples of a run of bytes, three each. -/
def bytesBlock : List Byte → Block
  | b0 :: b1 :: b2 :: rest => bytesSample b0 b1 b2 :: bytesBlock rest
  | _ => []

/-- A block brought to exactly 48 frames (every block of the hub already is). -/
def fitBlock (b : Block) : Block := (b ++ silence).take 48

/-- The 144 bytes of a block. -/
def blockBytes (b : Block) : List Byte := (fitBlock b).flatMap sampleBytes

/-- The block stored at place `j` of page `p`. -/
def readBlock (m : List Host.Cell) (p : Page) (j : Nat) : Block := bytesBlock (readBytes m (blockAddr p j) 144)

/-- A block stored at place `j` of page `p`. -/
def writeBlock (m : List Host.Cell) (p : Page) (j : Nat) (b : Block) : List Host.Cell :=
  writeBytes m (blockAddr p j) (blockBytes b)

/-! ## Arithmetic of samples (0.6) -/

/-- Division rounded half away from zero. -/
def roundAway (n : Int) (d : Nat) : Int :=
  let q : Nat := (2 * n.natAbs + d) / (2 * d)
  if n < 0 then -(q : Int) else (q : Int)

/-- A value brought into the sample range. -/
def saturate (x : Int) : Int := max (-8388608) (min 8388607 x)

/-- A function of sample and frame number over a block. -/
def perFrame (f : Int → Nat → Int) (b : Block) : Block := List.zipWith f b (List.range 48)

/-- The fade-in written by a cut (R88). -/
def fadeIn (b : Block) : Block := perFrame (fun v i => roundAway (v * ((i : Int) + 1)) 48) b

/-- The fade-out written by a cut (R88). -/
def fadeOut (b : Block) : Block := perFrame (fun v i => roundAway (v * (47 - (i : Int))) 48) b

/-- The seam blend of a head block with its spill (R83). -/
def seamBlend (head spill : Block) : Block :=
  List.zipWith (fun hx (i : Nat) => roundAway (hx.1 * ((i : Int) + 1) + hx.2 * (47 - (i : Int))) 48)
    (List.zip head spill) (List.range 48)

end Sys2Proof.Machine
end

