-- ==== Sys2Proof/Machine/Ops.lean ====
section
/-! DEFINITION. The named reads and updates of the state's tables, through which every operation goes. -/

namespace Sys2Proof.Machine

/-! ## Reads -/

/-- Track record `t`. -/
def State.track (s : State) (t : TrackId) : Track := s.lys.tracks[t]

/-- Layer record `l`; none: FREE. -/
def State.layer (s : State) (l : LayerId) : Option Layer := s.lys.layers[l]

/-- The state of input `i`. -/
def State.input (s : State) (i : Input) : InputRec := s.pse.inputs[i]

/-- The open pass on input `i`, if there is one. -/
def State.pass (s : State) (i : Input) : Option Pass := s.pse.inputs[i].pass

/-- The link record of link `lk`. -/
def State.link (s : State) (lk : Link) : LinkRec := s.slk.links[lk]

/-- The settings of station `lk`. -/
def State.station (s : State) (lk : Link) : Settings := s.rqu.stations[lk]

/-- The link is in RUN. -/
def State.linkRuns (s : State) (lk : Link) : Bool := (s.link lk).state = .run

/-- The hub is in hold (R147). -/
def State.inHold (s : State) : Bool := s.tmc.mem ≠ .active

/-- The free count (R52). -/
def State.freeCount (s : State) : Nat := s.pgp.free.length

/-! ## Updates -/

def State.withTrack (s : State) (t : TrackId) (x : Track) : State := { s with lys.tracks := s.lys.tracks.set t x }

def State.withLayer (s : State) (l : LayerId) (x : Option Layer) : State :=
  { s with lys.layers := s.lys.layers.set l x }

def State.withInput (s : State) (i : Input) (x : InputRec) : State := { s with pse.inputs := s.pse.inputs.set i x }

def State.withPass (s : State) (i : Input) (p : Option Pass) : State := s.withInput i { s.input i with pass := p }

def State.withLink (s : State) (lk : Link) (x : LinkRec) : State := { s with slk.links := s.slk.links.set lk x }

def State.withStation (s : State) (lk : Link) (x : Settings) : State :=
  { s with rqu.stations := s.rqu.stations.set lk x }

def State.withCyc (s : State) (x : Cyc) : State := { s with cyc := x }

def State.withPgp (s : State) (x : Pgp) : State := { s with pgp := x }

def State.withAqu (s : State) (x : Aqu) : State := { s with aqu := x }

def State.withMxe (s : State) (x : Mxe) : State := { s with mxe := x }

def State.withBne (s : State) (x : Bne) : State := { s with bne := x }

def State.withTmc (s : State) (x : Tmc) : State := { s with tmc := x }

def State.withSmn (s : State) (x : Smn) : State := { s with smn := x }

def State.withMem (s : State) (m : List Host.Cell) : State := { s with mem := m }

/-- The station counters of link `lk`. -/
def State.withCounters (s : State) (lk : Link) (c : StationCounters) : State :=
  s.withLink lk { s.link lk with station := c }

/-- The free-value counter, advanced by one use (log 31). -/
def State.nextFree (s : State) : State := { s with freeIndex := s.freeIndex + 1 }

/-! ## The lists of all links, inputs, tracks and layers -/

def allLinks : List Link := [0, 1, 2, 3]

def allInputs : List Input := [0, 1, 2, 3]

def allTracks : List TrackId := [0, 1, 2, 3, 4, 5, 6, 7]

def allLayers : List LayerId := (List.range 48).map (Fin.ofNat 48)

end Sys2Proof.Machine
end

