-- ==== Sys2Proof/Machine/Operands.lean ====
section
/-! DEFINITION. The argument checks and clamps of the requests (R184) and the enumerated codes of the formats (R193).
A function here answers none where the request is refused BAD_ARG. -/

namespace Sys2Proof.Machine

/-- A track number, refused above 7. -/
def trackArg (b : Byte) : Option TrackId := if h : b.toNat < 8 then some ⟨b.toNat, h⟩ else none

/-- An input number, refused above 3. -/
def inputArg (b : Byte) : Option Input := if h : b.toNat < 4 then some ⟨b.toNat, h⟩ else none

/-- A layer number, refused above 47. -/
def layerArg (b : Byte) : Option LayerId := if h : b.toNat < 48 then some ⟨b.toNat, h⟩ else none

/-- A station number, refused above 3. -/
def stationArg (b : Byte) : Option Link := if h : b.toNat < 4 then some ⟨b.toNat, h⟩ else none

/-- A beat count, refused outside 1 to 16. -/
def beatsArg (b : Byte) : Option Nat := if 1 ≤ b.toNat ∧ b.toNat ≤ 16 then some b.toNat else none

/-- The beat count of a TAP: 0 is absent, and a count that is present is refused outside 1 to 16 (R3, R192). -/
def tapBeatsArg (b : Byte) : Option (Option Nat) := if b = 0 then some none else (beatsArg b).map some

/-- A quantize mode (R193). -/
def quantizeArg (b : Byte) : Option Quantize :=
  match b.toNat with
  | 0 => some .now
  | 1 => some .beat
  | 2 => some .cycle
  | 3 => some .track
  | _ => none

/-- A route (R193). -/
def routeArg (b : Byte) : Option Route :=
  match b.toNat with
  | 0 => some .none
  | 1 => some .a
  | 2 => some .b
  | 3 => some .both
  | _ => none

/-- A bus argument: whether it names bus A and whether it names bus B (R193). -/
def busArg (b : Byte) : Option (Bool × Bool) :=
  match b.toNat with
  | 0 => some (true, false)
  | 1 => some (false, true)
  | 2 => some (true, true)
  | _ => none

/-- A return setting (R193). -/
def returnArg (b : Byte) : Option ReturnSetting :=
  match b.toNat with
  | 0 => some .none
  | 1 => some .a
  | 2 => some .b
  | _ => none

/-- A mute, pin or quiet setting (R193). -/
def settingArg (b : Byte) : Option Bool :=
  match b.toNat with
  | 0 => some false
  | 1 => some true
  | _ => none

/-- A bounce mode (R193). -/
def bounceModeArg (b : Byte) : Option BounceMode :=
  match b.toNat with
  | 0 => some .scan
  | 1 => some .commit
  | _ => none

/-- A bounce source count, refused outside 2 to 8. -/
def bounceCountArg (b : Byte) : Option Nat := if 2 ≤ b.toNat ∧ b.toNat ≤ 8 then some b.toNat else none

/-- A level, clamped to 256. -/
def levelArg (w : Word16) : Nat := min w.toNat 256

/-- A grace, clamped to 200. -/
def graceArg (b : Byte) : Nat := min b.toNat 200

/-- A supply limit, clamped to 3 300 to 16 000 mV. -/
def limitArg (w : Word16) : Nat := clampNat 3300 16000 w.toNat

/-- A cycle length, clamped to 250 to 30 000 blocks. -/
def lengthArg (w : Word16) : Nat := clampNat 250 30000 w.toNat

/-! ## Event kinds (R192) -/

/-- The kind's code. -/
def EventKind.code : EventKind → Nat
  | .cycleMark => 1
  | .beatMark => 2
  | .passStarted => 3
  | .passEnded => 4
  | .layerReclaimed => 5
  | .poolLow => 6
  | .bounceEnded => 7
  | .busClip => 8
  | .voiceShed => 9
  | .inputDropout => 10
  | .linkState => 11
  | .supplyState => 12
  | .thermalState => 13
  | .holdState => 14
  | .hubRestarted => 15
  | .quietSummary => 16
  | .routeFail => 17

/-- The seventeen kinds, ascending by code. -/
def allKinds : List EventKind :=
  [.cycleMark, .beatMark, .passStarted, .passEnded, .layerReclaimed, .poolLow, .bounceEnded, .busClip, .voiceShed,
   .inputDropout, .linkState, .supplyState, .thermalState, .holdState, .hubRestarted, .quietSummary, .routeFail]

/-- The set of kinds of an EVENTS_SET: bit k - 1 for kind code k, bits 17 to 23 disregarded (R193). -/
def kindsArg (m : BitVec 24) : List EventKind := allKinds.filter fun k => m.getLsbD (k.code - 1)

/-- The kind of an event. -/
def EventBody.kind : EventBody → EventKind
  | .cycleMark .. => .cycleMark
  | .beatMark .. => .beatMark
  | .passStarted .. => .passStarted
  | .passEnded .. => .passEnded
  | .layerReclaimed .. => .layerReclaimed
  | .poolLow .. => .poolLow
  | .bounceEnded .. => .bounceEnded
  | .busClip .. => .busClip
  | .voiceShed .. => .voiceShed
  | .inputDropout .. => .inputDropout
  | .linkState .. => .linkState
  | .supplyState .. => .supplyState
  | .thermalState .. => .thermalState
  | .holdDraining .. => .holdState
  | .holdRetaining .. => .holdState
  | .holdActive .. => .holdState
  | .hubRestarted .. => .hubRestarted
  | .quietSummary .. => .quietSummary
  | .routeFail .. => .routeFail

/-- The urgent events (R190). -/
def EventBody.urgent : EventBody → Bool
  | .holdDraining .. => true
  | .holdRetaining .. => true
  | .holdActive .. => true
  | .hubRestarted .. => true
  | .supplyState new _ _ _ _ _ => new = .critical
  | .routeFail .. => true
  | _ => false

end Sys2Proof.Machine
end

