-- ==== Sys2Proof/Machine/Flags.lean ====
section
/-! DEFINITION. The status the hub computes from a reading or a count: supply and thermal states, refresh charge, voice
cap, the low mark and the shed flag. -/

namespace Sys2Proof.Machine

/-- The new supply state of a reading of `v` mV, with thrift limit `t` and critical limit `k` (R162). -/
def supplyAfter (old : Supply) (v t k : Nat) : Supply :=
  if v < k then .critical
  else match old with
    | .critical => if k + 200 ≤ v then .thrift else .critical
    | .thrift => if t + 200 ≤ v then .normal else .thrift
    | .normal => if v < t then .thrift else .normal

/-- The new thermal state of a reading of `c` degrees (R163). -/
def thermalAfter (old : Thermal) (c : Int) : Thermal :=
  if 100 ≤ c then .scorch
  else match old with
    | .scorch => if c < 90 then .hot else .scorch
    | .hot => if c < 80 then .cool else .hot
    | .cool => if 85 ≤ c then .hot else .cool

/-- The refresh charge of a thermal state (R149). -/
def refreshOf : Thermal → Nat
  | .cool => 2
  | .hot => 4
  | .scorch => 4

/-- The cap a supply state sets outside hold (R114). -/
def supplyCap : Supply → Nat
  | .normal => 32
  | .thrift => 16
  | .critical => 16

/-- The cause of the automatic trigger a reading hands over, if it hands one (R165). -/
def triggerCause (u : Supply) (h : Thermal) : Option HoldCause :=
  if h = .scorch then some .scorch else if u = .critical then some .critical else none

/-- The low flag after an operation that leaves `free` pages free (R65). -/
def lowFlagAfter (flag : Bool) (free : Nat) : Bool := if flag then free < 320 else free < 256

/-- A battery measurement in its range (R161). -/
def batteryRange (v : Nat) : Nat := min v 20000

/-- A temperature measurement in its range; an open or shorted input reads 125 (R161). -/
def temperatureRange : Option Int → Int
  | none => 125
  | some c => max (-40) (min 125 c)

end Sys2Proof.Machine
end

