-- ==== Sys2Proof/Machine/Wire.lean ====
section
/-! DEFINITION. The bytes of the packets the hub sends (R193) and the encoding of their fields (R194). Where R194 leaves
a layout open the choice is in log 23. -/

namespace Sys2Proof.Machine

/-! ## Fields (R194) -/

def enc8 (n : Nat) : List Byte := [BitVec.ofNat 8 n]

def enc16 (n : Nat) : List Byte := [BitVec.ofNat 8 n, BitVec.ofNat 8 (n / 256)]

def enc32 (n : Nat) : List Byte := enc16 n ++ enc16 (n / 65536)

/-- A temperature: one signed byte. -/
def encTemp (c : Int) : List Byte := [BitVec.ofInt 8 c]

/-- A field that may be absent: a presence byte, and nothing after a 0. -/
def encOpt {α : Type} (f : α → List Byte) : Option α → List Byte
  | none => enc8 0
  | some x => enc8 1 ++ f x

/-- A list: a count byte and the entries. -/
def encList {α : Type} (f : α → List Byte) (xs : List α) : List Byte := enc8 xs.length ++ xs.flatMap f

/-- An on/off flag, in the order its defining table lists its values: on, off (log 23). -/
def encFlag (b : Bool) : List Byte := enc8 (if b then 0 else 1)

/-- A truth value that no table lists as an enumeration: 1 for true (log 23). -/
def encBool (b : Bool) : List Byte := enc8 (if b then 1 else 0)

def TlState.code : TlState → Nat
  | .unset => 0
  | .counting => 1
  | .measuring => 2
  | .running => 3
  | .paused => 4

def TrackState.code : TrackState → Nat
  | .empty => 0
  | .opening => 1
  | .looping => 2

def Route.code : Route → Nat
  | .none => 0
  | .a => 1
  | .b => 2
  | .both => 3

/-- Layer states, FREE first as R25 names it (log 23). -/
def layerCode : Option Layer → Nat
  | none => 0
  | some l => match l.state with
    | .recording => 1
    | .live => 2
    | .parked => 3
    | .forming => 4

def PassKind.code : PassKind → Nat
  | .measure => 0
  | .opening => 1
  | .fixed => 2

def PassState.code : PassState → Nat
  | .writing => 0
  | .spillWait => 1

def CutCause.code : CutCause → Nat
  | .starved => 0
  | .link => 1
  | .stop => 2
  | .hold => 3
  | .closed => 4

def PassOutcome.code : PassOutcome → Nat
  | .complete => 0
  | .cut => 1
  | .aborted => 2

def Need.code : Need → Nat
  | .page => 0
  | .snap => 1
  | .record => 2
  | .bounce => 3

def BounceMode.code : BounceMode → Nat
  | .scan => 0
  | .commit => 1

def BounceAbort.code : BounceAbort → Nat
  | .undo => 0
  | .clear => 1
  | .erase => 2
  | .songClear => 3

def Engine.code : Engine → Nat
  | .idle => 0
  | .scanning => 1
  | .committing => 2
  | .suspended => 3

def Bus.code : Bus → Nat
  | .a => 0
  | .b => 1

def Supply.code : Supply → Nat
  | .normal => 0
  | .thrift => 1
  | .critical => 2

def Thermal.code : Thermal → Nat
  | .cool => 0
  | .hot => 1
  | .scorch => 2

def MemState.code : MemState → Nat
  | .active => 0
  | .draining => 1
  | .retaining => 2
  | .waking => 3

def HoldCause.code : HoldCause → Nat
  | .request => 0
  | .critical => 1
  | .scorch => 2

def WakeCause.code : WakeCause → Nat
  | .resume => 0
  | .reset => 1

def LinkState.code : LinkState → Nat
  | .listen => 0
  | .join => 1
  | .run => 2
  | .recover => 3

def RecoveryCause.code : RecoveryCause → Nat
  | .parity => 0
  | .silence => 1
  | .breakChar => 2
  | .badCode => 3
  | .strayEnd => 4

def RouteReason.code : RouteReason → Nat
  | .noSuch => 0
  | .self => 1
  | .down => 2
  | .busy => 3
  | .tooLong => 4

def ReturnSetting.code : ReturnSetting → Nat
  | .none => 0
  | .a => 1
  | .b => 2

/-- The value of a reply code (R192). -/
def ReplyCode.code : ReplyCode → Nat
  | .ok => 0
  | .queued => 1
  | .done => 2
  | .withdrawn => 3
  | .cancelled => 4
  | .busy => 5
  | .badArg => 6
  | .unknown => 7
  | .malformed => 8
  | .wrongState => 9
  | .held => 10
  | .stackFull => 11
  | .redoFull => 12
  | .noLayer => 13
  | .noRoom => 14
  | .pinLimit => 15
  | .pinned => 16
  | .bouncing => 17
  | .queueFull => 18
  | .trackOpening => 19
  | .inputBusy => 20
  | .noPass => 21
  | .nothing => 22
  | .cooling => 23
  | .lowSupply => 24

/-! ## Packets (R193) -/

/-- A layer id with its serial. -/
def encDest (d : LayerId × Nat) : List Byte := enc8 d.1.val ++ enc32 d.2

/-- The payload of a reply (R194). -/
def Payload.bytes : Payload → List Byte
  | .none => []
  | .queued due distance arrival => enc32 due ++ enc32 distance ++ enc32 arrival
  | .bounce peak clips dest => enc32 peak ++ enc32 clips ++ encOpt encDest dest
  | .limits thrift critical => enc16 thrift ++ enc16 critical
  | .record bytes => bytes

/-- A reply packet (R193). Byte 3 of a reply whose tag is marked absent is 0, and so are the bits of the flags byte that R193
gives no meaning (log 23). -/
def Reply.bytes (r : Reply) : List Byte :=
  [0x00, 0x81, r.request, r.tag.getD 0] ++
    enc8 ((if r.tag.isSome then 1 else 0) + (if r.completion then 2 else 0)) ++ enc8 r.code.code ++ enc8 r.stamp ++
    r.payload.bytes

/-- The fields of an event, in the order its rule lists them (R194). A field that the rule's table shows as absent for the
kind is left out altogether, with no presence byte, and the limits of a SUPPLY_STATE, always there, have none (log 23). -/
def EventBody.fields : EventBody → List Byte
  | .cycleMark len beats => enc16 len ++ enc8 beats
  | .beatMark index => enc8 index
  | .passStarted i t l serial kind start snap =>
    enc8 i.val ++ enc8 t.val ++ enc8 l.val ++ enc32 serial ++ enc8 kind.code ++ enc32 start ++ enc8 snap
  | .passEnded i t l serial kind start outcome cause written mult len =>
    enc8 i.val ++ enc8 t.val ++ enc8 l.val ++ enc32 serial ++ enc8 kind.code ++ enc32 start ++ enc8 outcome.code ++
      encOpt (fun c => enc8 c.code) cause ++ enc32 written ++ encOpt enc8 mult ++ encOpt enc16 len
  | .layerReclaimed l t serial stamp pages need free =>
    enc8 l.val ++ enc8 t.val ++ enc32 serial ++ enc32 stamp ++ enc16 pages ++ enc8 need.code ++ enc16 free
  | .poolLow on free => encFlag on ++ enc16 free
  | .bounceEnded t count mode cause station done total peak clips dest =>
    enc8 t.val ++ enc8 count ++ enc8 mode.code ++ enc8 (if cause.isSome then 1 else 0) ++
      encOpt (fun c => enc8 c.code) cause ++ enc8 station.val ++ enc16 done ++ enc16 total ++ enc32 peak ++ enc32 clips ++
      encOpt encDest dest
  | .busClip bus count frames peak => enc8 bus.code ++ enc16 count ++ enc8 frames ++ enc32 peak
  | .voiceShed on candidates cap admitted => encFlag on ++ enc8 candidates ++ enc8 cap ++ enc8 admitted
  | .inputDropout i count => enc8 i.val ++ enc32 count
  | .linkState lk state cause => enc8 lk.val ++ enc8 state.code ++ encOpt (fun c => enc8 c.code) cause
  | .supplyState new old reading thrift critical hold =>
    enc8 new.code ++ enc8 old.code ++ enc16 reading ++ enc16 thrift ++ enc16 critical ++ encBool hold
  | .thermalState new old reading hold => enc8 new.code ++ enc8 old.code ++ encTemp reading ++ encBool hold
  | .holdDraining cause station supply thermal timeline =>
    enc8 MemState.draining.code ++ enc8 cause.code ++ encOpt (fun n => enc8 n.val) station ++ enc8 supply.code ++
      enc8 thermal.code ++ enc8 timeline.code
  | .holdRetaining cause drained engine =>
    enc8 MemState.retaining.code ++ (cause.map fun c => enc8 c.code).getD [] ++ enc8 drained ++ enc8 engine.code
  | .holdActive cause timeline => enc8 MemState.active.code ++ enc8 cause.code ++ enc8 timeline.code
  | .hubRestarted station block mem => enc8 station.val ++ enc32 block ++ enc8 mem.code
  | .quietSummary kinds => encList (fun k => enc8 k.code) kinds
  | .routeFail reason dest links passedOn =>
    enc8 reason.code ++ [dest] ++ encList (fun n => enc8 n.val) links ++ enc16 passedOn

/-- An event packet (R193); the bits of the flags byte that R193 gives no meaning are 0 (log 23). -/
def Event.bytes (e : Event) : List Byte :=
  [0x00, 0x82] ++ enc8 e.body.kind.code ++
    enc8 ((if e.missed then 1 else 0) + (if e.urgent then 2 else 0) + (if e.info.pos.isSome then 4 else 0)) ++
    enc8 e.info.count64 ++ enc16 (e.info.pos.getD 0) ++ enc8 e.info.stamp ++ e.body.fields

/-- A return block packet. -/
def ReturnBlock.bytes (r : ReturnBlock) : List Byte :=
  [0x00, 0x83] ++ enc8 r.bus.code ++ enc8 r.stamp ++ blockBytes r.samples

end Sys2Proof.Machine
end

