-- ==== Sys2Proof/Machine/Router.lean ====
section
/-! DEFINITION. The event router (R189 to R191) and the placing of replies (R176, R185). -/

namespace Sys2Proof.Machine

/-- The fields an event of the current block carries (R189). -/
def State.info (s : State) : BlockInfo where
  count64 := s.cyc.count % 64
  pos := if s.cyc.state = .running ∨ s.cyc.state = .paused then s.cyc.pos else none
  stamp := s.cyc.block % 256

/-! ## Event queues -/

/-- The queue without its newest event that `p` holds of; none if there is none. -/
def dropNewest (p : Event → Bool) : List Event → Option (List Event)
  | [] => none
  | e :: es =>
    match dropNewest p es with
    | some rest => some (e :: rest)
    | none => if p e then some es else none

/-- The queue without the event an urgent one displaces (R190): the newest that is not urgent, else the newest
ROUTE_FAIL, else the newest. -/
def evict (q : List Event) : List Event :=
  match dropNewest (fun e => !e.urgent) q with
  | some rest => rest
  | none => (dropNewest (fun e => e.body.kind = .routeFail) q).getD q.dropLast

/-- The event joins the tail; it carries the missed flag, which clears (R189). -/
def joinEvents (lk : Link) (b : EventBody) (info : BlockInfo) (s : State) : State :=
  (s.withLink lk { s.link lk with events := (s.link lk).events ++ [⟨b, info, (s.station lk).missed, b.urgent⟩] })
    |>.withStation lk { s.station lk with missed := false }

/-- An event is dropped: the missed flag is set and the count rises (R189). -/
def countDropped (lk : Link) (s : State) : State :=
  s.withStation lk { s.station lk with missed := true, dropped := sat32 ((s.station lk).dropped + 1) }

/-- An event that is not urgent meets a station subscribed to it whose quiet is off (R189). -/
def queueEvent (lk : Link) (b : EventBody) (info : BlockInfo) (s : State) : State :=
  if (s.link lk).events.length < 16 then joinEvents lk b info s else countDropped lk s

/-- An urgent event always enters (R190). -/
def queueUrgent (lk : Link) (b : EventBody) (info : BlockInfo) (s : State) : State :=
  if (s.link lk).events.length < 16 then joinEvents lk b info s
  else joinEvents lk b info
    (countDropped lk (s.withLink lk { s.link lk with events := evict (s.link lk).events }))

/-- A station's quiet ends: one QUIET_SUMMARY of its pending kinds, if it subscribes to that kind, and the set is
emptied (R191). The summary carries the fields of the current block, even where the event that ends the quiet carries those
of the block before (log 59). -/
def endQuiet (lk : Link) (s : State) : State :=
  let st := s.station lk
  if st.quiet then
    let s1 := s.withStation lk { st with quiet := false, pendingKinds := [] }
    if s.linkRuns lk && st.pendingKinds ≠ [] && st.subs.contains .quietSummary then
      queueEvent lk (.quietSummary st.pendingKinds) s.info s1
    else s1
  else s

/-- A kind added to a set of kinds, which is listed ascending by code (R191, log 61). -/
def addKind (k : EventKind) (ks : List EventKind) : List EventKind :=
  allKinds.filter fun x => x = k || ks.contains x

/-- An event reaches one station (R189). -/
def deliver (lk : Link) (b : EventBody) (info : BlockInfo) (s : State) : State :=
  if !s.linkRuns lk then s
  else if b.urgent then queueUrgent lk b info (endQuiet lk s)
  else if !(s.station lk).subs.contains b.kind then s
  else if (s.station lk).quiet then
    s.withStation lk { s.station lk with pendingKinds := addKind b.kind (s.station lk).pendingKinds }
  else queueEvent lk b info s

/-- A LINK_STATE is not delivered to the link it is about (R189). -/
def EventBody.excludes : EventBody → Link → Bool
  | .linkState about _ _, lk => about = lk
  | _, _ => false

/-- An event is handed to the router with the fields of the block it was produced in. -/
def emitAt (info : BlockInfo) (b : EventBody) (s : State) : State :=
  allLinks.foldl (fun s lk => if b.excludes lk then s else deliver lk b info s) s

/-- An event of the current block is handed to the router. -/
def emit (b : EventBody) (s : State) : State := emitAt s.info b s

/-! ## Replies -/

/-- A reply placed at the tail of a link's reply queue; SLK places nothing on a link that is not in RUN (R174). -/
def pushReply (lk : Link) (r : Reply) (s : State) : State :=
  if s.linkRuns lk then s.withLink lk { s.link lk with replies := (s.link lk).replies ++ [r] } else s

/-- A reply of the request unit, the action queue or the bounce engine (R185). -/
def reply (lk : Link) (request tag : Byte) (completion : Bool) (code : ReplyCode) (payload : Payload) (s : State) :
    State :=
  pushReply lk ⟨request, some tag, completion, code, s.cyc.block % 256, payload, false⟩ s

/-- A reception reply (R176): at most 3 wait in a reply queue, and a further one is counted, not placed. -/
def receptionReply (lk : Link) (request : Byte) (tag : Option Byte) (code : ReplyCode) (s : State) : State :=
  if ((s.link lk).replies.filter (·.reception)).length < 3 then
    pushReply lk ⟨request, tag, false, code, s.cyc.block % 256, .none, true⟩ s
  else
    let c := (s.link lk).station
    s.withCounters lk { c with unanswered := sat32 (c.unanswered + 1) }

end Sys2Proof.Machine
end

