-- ==== Sys2Proof/Machine/Timeline.lean ====
section
/-! DEFINITION. The cycle clock: rounding of the cycle (R4), track positions (R17), marks (R16), the advance (R15), and
the changes of the timeline that other blocks ask for. -/

namespace Sys2Proof.Machine

/-! ## Cycle length and beats (section 1.4) -/

/-- The smallest multiple of `b` that is at least 250. -/
def lmin (b : Nat) : Nat := ceilDiv 250 b * b

/-- The largest multiple of `b` that is at most 30 000. -/
def lmax (b : Nat) : Nat := 30000 / b * b

/-- A length of `m` blocks rounded to a cycle of `b` beats (R4). -/
def roundCycle (m b : Nat) : Nat := clampNat (lmin b) (lmax b) (b * ((2 * m + b) / (2 * b)))

/-- The beat length of a tapped count-in, from the sum of its three intervals (R8). -/
def tapBeat (sum b : Nat) : Nat := clampNat (ceilDiv 250 b) (30000 / b) ((2 * sum + 3) / 6)

/-- Beat length b = L/B; 0 where no cycle is set. -/
def Cyc.beatLen (c : Cyc) : Nat :=
  match c.len, c.beats with
  | some l, some b => l / b
  | _, _ => 0

/-! ## Track positions (R17) -/

/-- The cycles from anchor `a` to count `c`, modulo 53 760. -/
def cyclesSince (c a : Nat) : Nat := (c + (53760 - a % 53760)) % 53760

/-- The length k x L of a LOOPING track (R23). -/
def State.trackLen (s : State) (t : TrackId) : Option Nat :=
  match (s.track t).mult, s.cyc.len with
  | some k, some l => some (k * l)
  | _, _ => none

/-- The track position of the current block (R17). -/
def State.trackPos (s : State) (t : TrackId) : Option Nat :=
  let tr := s.track t
  match tr.state, s.cyc.state with
  | .opening, .measuring => s.cyc.measureStart.map (diff32 s.cyc.block)
  | .opening, .running =>
    match tr.anchor, s.cyc.len, s.cyc.pos with
    | some a, some l, some p => some (cyclesSince s.cyc.count a * l + p)
    | _, _, _ => none
  | .looping, .running =>
    match tr.anchor, tr.mult, s.cyc.len, s.cyc.pos with
    | some a, some k, some l, some p => some (cyclesSince s.cyc.count a % k * l + p)
    | _, _, _, _ => none
  | _, _ => none

/-- The positions of the LOOPING tracks in the current block, as run-out positions (R18). -/
def State.loopPositions (s : State) : Vector (Option Nat) 8 :=
  allTracks.foldl (fun (v : Vector (Option Nat) 8) (t : TrackId) =>
    v.set t (if (s.track t).state = .looping then s.trackPos t else none)) (Vector.replicate 8 none)

/-! ## Marks (R16) -/

/-- A stop or a hold of the current block is known at its start: a TRANSPORT_STOP is due in it, or a trigger of an earlier
block's reading waits while the memory is ACTIVE (R152). Such a block emits no marks (R18). -/
def State.leavesRunning (s : State) : Bool :=
  (s.aqu.queue.any fun e => e.action = .transportStop && e.due = s.cyc.block) ||
    (s.tmc.mem = .active && s.tmc.trigger.any fun x => x.2 ≠ s.cyc.block)

/-- The current block is a beat boundary (R15). -/
def Cyc.onBeat (c : Cyc) : Bool :=
  match c.state, c.pos, c.len, c.beats with
  | .running, some p, some l, some b => p % (l / b) = 0
  | _, _, _, _ => false

/-- The marks of a block at position `p` in a cycle of `l` blocks and `b` beats: the BEAT_MARK, and at p = 0 the CYCLE_MARK
after it (R16). -/
def sendMarks (l b p : Nat) (s : State) : State :=
  let s1 := emit (.beatMark (p / (l / b))) s
  if p = 0 then emit (.cycleMark l b) s1 else s1

/-- The marks of the current block are emitted (R16). -/
def sendBlockMarks (s : State) : State :=
  match s.cyc.len, s.cyc.beats, s.cyc.pos with
  | some l, some b, some p => sendMarks l b p s
  | _, _, _ => s

/-- The current block has been given a position: its marks, if that is a beat boundary (R16). Where a stop or a hold of the
block is certain they are withheld (R18); marks already emitted stand when a request of the same block stops the timeline
(log 43). -/
def emitMarks (s : State) : State :=
  if s.cyc.onBeat then
    if s.leavesRunning then s.withCyc { s.cyc with withheld := true } else sendBlockMarks s
  else s

/-- Marks withheld are emitted after all, where the timeline leaves RUNNING by SONG_CLEAR and not by the stop or the hold
(R16, R18, log 43). -/
def releaseMarks (s : State) : State := if s.cyc.withheld then sendBlockMarks s else s

/-! ## Changes of the timeline -/

/-- The position's advance at a block boundary in RUNNING (R15). -/
def Cyc.advance (c : Cyc) : Cyc :=
  match c.state, c.pos, c.len with
  | .running, some p, some l =>
    if p + 1 < l then { c with pos := some (p + 1) } else { c with pos := some 0, count := (c.count + 1) % 53760 }
  | _, _, _ => c

/-- The timeline with a cycle of `l` blocks and `b` beats, RUNNING at p = 0, C = 0 (R5). -/
def Cyc.startCycle (c : Cyc) (l b : Nat) : Cyc :=
  { c with state := .running, len := some l, beats := some b, setting := b, pos := some 0, count := 0 }

/-- The timeline back in UNSET: no cycle, no count-in, no measuring (R10, R14, R22). The caller settles C. -/
def Cyc.toUnset (c : Cyc) : Cyc :=
  { c with state := .unset, len := none, beats := none, pos := none, taps := [], lastTap := none, schedStart := none,
           measureStart := none, withheld := false }

/-- Measuring begins in the current block (R11). -/
def Cyc.startMeasuring (c : Cyc) : Cyc := { c with state := .measuring, measureStart := some c.block }

/-- The blocks measured so far, N - N0 (R12). -/
def Cyc.measured (c : Cyc) : Nat := (c.measureStart.map (diff32 c.block)).getD 0

/-- The measured cycle placed as if it had run from N0 (R12). -/
def Cyc.placeMeasured (c : Cyc) : Cyc :=
  let m := c.measured
  let l := roundCycle m c.setting
  { c with state := .running, len := some l, beats := some c.setting, pos := some (m % l), count := m / l % 53760,
           measureStart := none }

/-- The first tap of a count-in (R6). -/
def Cyc.firstTap (c : Cyc) (beats : Option Nat) : Cyc :=
  { c with state := .counting, setting := beats.getD c.setting, taps := [], lastTap := some c.block }

/-- A further tap of a count-in (R7), the fourth fixing the cycle (R8). -/
def Cyc.nextTap (c : Cyc) (beats : Option Nat) : Cyc :=
  let c := { c with setting := beats.getD c.setting }
  let gap := diff32 c.block (c.lastTap.getD c.block)
  if gap = 0 then c
  else if 2000 < gap then { c with taps := [], lastTap := some c.block }
  else
    let taps := c.taps ++ [gap]
    if taps.length < 3 then { c with taps := taps, lastTap := some c.block }
    else
      let beat := tapBeat taps.sum c.setting
      { c with taps := taps, lastTap := none, beats := some c.setting, len := some (beat * c.setting),
               schedStart := some (wrap32 (c.block + beat)) }

/-- COUNTING after the fourth tap (R8). -/
def Cyc.afterFourthTap (c : Cyc) : Bool := c.state = .counting && c.schedStart.isSome

/-- The scheduled start (R9). -/
def Cyc.scheduled (c : Cyc) : Cyc :=
  { c with state := .running, pos := some 0, count := 0, schedStart := none, taps := [] }

/-- RUNNING left by a stop (R19) or a hold (R21): PAUSED at p = 0 with C kept, and the run-out positions of the block
(R18). A second stop in one block gives the block its run-out positions anew (log 44). -/
def leaveRunning (s : State) : State :=
  s.withCyc { s.cyc with state := .paused, pos := some 0, runOut := some s.loopPositions, withheld := false }

/-- A restart from the top: RUNNING at p = 0, C = 0, every anchor 0 (R20); the marks are the caller's. -/
def restart (s : State) : State :=
  allTracks.foldl
    (fun s t => if (s.track t).state = .empty then s else s.withTrack t { s.track t with anchor := some 0 })
    (s.withCyc { s.cyc with state := .running, pos := some 0, count := 0 })

end Sys2Proof.Machine
end

