-- ==== Sys2Proof/Machine/Pool.lean ====
section
/-! DEFINITION. The page pool (chapter 3) and the layer records it takes pages from and gives pages to: freeing (R30,
R53), claims (R54, R55), reclaim (R57 to R59), trimming (R63), the low mark (R65), records (R28) and parking (R31). -/

namespace Sys2Proof.Machine

/-! ## The low mark -/

/-- The low-mark test made after an operation on the pool, taken whole (R65). -/
def lowMark (s : State) : State :=
  let on := lowFlagAfter s.pgp.low s.freeCount
  let s1 := s.withPgp { s.pgp with low := on, lowest := min s.pgp.lowest s.freeCount }
  if on = s.pgp.low then s1 else emit (.poolLow on s.freeCount) s1

/-- Pages appended to the free-list tail. -/
def givePages (ps : List Page) (s : State) : State := s.withPgp { s.pgp with free := s.pgp.free ++ ps }

/-! ## Freeing -/

/-- A pass is open on track `t`. -/
def State.passOn (s : State) (t : TrackId) : Bool := allInputs.any fun i => (s.pass i).any fun p => p.track = t

/-- The LOOPING-to-EMPTY test (R24). -/
def emptyTest (t : TrackId) (s : State) : State :=
  let tr := s.track t
  if tr.state = .looping && tr.stack.isEmpty && tr.redo.isEmpty && !s.passOn t then
    s.withTrack t { tr with state := .empty, mult := none, anchor := none }
  else s

/-- A layer is freed, actions 1 to 4 of R30: it leaves its list, its pin leaves the total, its pages join the free-list
tail in slot order, its record is FREE. -/
def dropLayer (id : LayerId) (s : State) : State :=
  match s.layer id with
  | none => s
  | some l =>
    let tr := s.track l.track
    let s1 := s.withTrack l.track { tr with stack := tr.stack.filter (· ≠ id), redo := tr.redo.filter (· ≠ id) }
    let s2 := givePages (l.map.map (·.2)) s1
    let s3 := s2.withPgp
      { s2.pgp with pinnedTotal := if l.pinned then s2.pgp.pinnedTotal - l.map.length else s2.pgp.pinnedTotal }
    s3.withLayer id none

/-- A layer is freed, with the test of its track (R30). -/
def freeLayer (id : LayerId) (s : State) : State :=
  match s.layer id with
  | none => s
  | some l => emptyTest l.track (dropLayer id s)

/-- Several layers are freed in order; the low mark is tested once (R53, R65). -/
def freeLayers (ids : List LayerId) (s : State) : State :=
  if ids.isEmpty then s else lowMark (ids.foldl (fun s id => freeLayer id s) s)

/-- The layers of a list that are pinned, or not. -/
def State.havingPin (s : State) (pin : Bool) (ids : List LayerId) : List LayerId :=
  ids.filter fun id => (s.layer id).any fun l => l.pinned = pin

/-! ## Reclaim -/

/-- The park stamp of a layer that may be reclaimed (R57). -/
def Layer.reclaimStamp (l : Layer) : Option Nat :=
  if l.state = .parked && !l.pinned then some (l.stamp.getD 0) else none

/-- The older of a victim found so far and record `id`. -/
def olderVictim (s : State) (best : Option (LayerId × Nat)) (id : LayerId) : Option (LayerId × Nat) :=
  match (s.layer id).bind Layer.reclaimStamp, best with
  | none, _ => best
  | some n, none => some (id, n)
  | some n, some (_, m) => if n < m then some (id, n) else best

/-- The reclaim victim: the PARKED, unpinned layer with the smallest park stamp (R57). -/
def State.victim (s : State) : Option LayerId := (allLayers.foldl (olderVictim s) none).map (·.1)

/-- One victim reclaimed (R57), with its event (R59); none if there is no victim. -/
def reclaimOne (need : Need) (s : State) : Option State :=
  match s.victim with
  | none => none
  | some id =>
    match s.layer id with
    | none => none
    | some l =>
      let s1 := freeLayer id s
      let s2 := s1.withPgp
        { s1.pgp with reclaims := sat32 (s1.pgp.reclaims + 1),
                      reclaimedPages := sat32 (s1.pgp.reclaimedPages + l.map.length) }
      some (emit (.layerReclaimed id l.track l.serial (l.stamp.getD 0) l.map.length need s2.freeCount) s2)

/-- A reclaim run: victims one at a time until the need is met or none remains (R58). -/
def reclaimRun (need : Need) (met : State → Bool) : Nat → State → State
  | 0, s => s
  | n + 1, s =>
    if met s then s
    else match reclaimOne need s with
      | none => s
      | some s' => reclaimRun need met n s'

/-- The reclaimable page count (R52). -/
def State.reclaimable (s : State) : Nat :=
  (allLayers.map fun id => ((s.layer id).map fun l => if l.reclaimStamp.isSome then l.map.length else 0).getD 0).sum

/-! ## Claims -/

/-- A page entered in one slot of a page map. -/
def putSlot (slot : Nat) (pg : Page) : List (Nat × Page) → List (Nat × Page)
  | [] => [(slot, pg)]
  | (a, b) :: rest =>
    if slot < a then (slot, pg) :: (a, b) :: rest
    else if slot = a then (slot, pg) :: rest
    else (a, b) :: putSlot slot pg rest

/-- The page of a slot, if it is present. -/
def slotPage : List (Nat × Page) → Nat → Option Page
  | [], _ => none
  | (a, b) :: rest, slot => if a = slot then some b else slotPage rest slot

/-- The free list's head page enters an absent slot of layer `id`; false if the list is empty or the record FREE. A slot
that holds a page keeps it. -/
def moveHead (id : LayerId) (slot : Nat) (s : State) : State × Bool :=
  match s.pgp.free, s.layer id with
  | pg :: rest, some l =>
    if (slotPage l.map slot).isSome then (s, true)
    else ((s.withPgp { s.pgp with free := rest }).withLayer id (some { l with map := putSlot slot pg l.map }), true)
  | _, _ => (s, false)

/-- A single-page claim (R54): the state after it, and whether it was met. -/
def claimPage (id : LayerId) (slot : Nat) (s : State) : State × Bool :=
  let r := moveHead id slot (reclaimRun .page (fun x => !x.pgp.free.isEmpty) 48 s)
  if r.2 then (lowMark r.1, true)
  else (s.withPgp { s.pgp with starved := sat32 (s.pgp.starved + 1) }, false)

/-- A snap-back group claim of the slots named, ascending (R55). -/
def claimGroup (id : LayerId) (slots : List Nat) (s : State) : State × Bool :=
  if s.freeCount + s.reclaimable < slots.length then
    (s.withPgp { s.pgp with groupRefusals := sat32 (s.pgp.groupRefusals + 1) }, false)
  else
    let s1 := reclaimRun .snap (fun x => slots.length ≤ x.freeCount) 48 s
    (lowMark (slots.foldl (fun s slot => (moveHead id slot s).1) s1), true)

/-! ## Trimming -/

/-- Track position `pos` lies in the span of `n` positions from `start`, modulo `len` (R27). -/
def inSpan (start n len pos : Nat) : Bool := (pos + len - start) % len < n

/-- A slot holds a position of the span (R63). -/
def slotKept (start n len slot : Nat) : Bool :=
  if n = 0 then false
  else if start + n ≤ len then start / 256 ≤ slot && slot ≤ (start + n - 1) / 256
  else start / 256 ≤ slot || slot ≤ (start + n - 1 - len) / 256

/-- A layer's written count falls to `n`: the pages of the slots that hold none of the kept positions return (R63). -/
def trimLayer (id : LayerId) (n : Nat) (s : State) : State :=
  match s.layer id with
  | none => s
  | some l =>
    let len := l.length.getD 240000
    let keep := l.map.filter fun c => slotKept l.start n len c.1
    let gone := l.map.filter fun c => !slotKept l.start n len c.1
    lowMark (givePages (gone.map (·.2)) (s.withLayer id (some { l with written := n, map := keep })))

/-! ## Layer records -/

/-- The FREE record with the lowest number (R28). -/
def State.freeRecord (s : State) : Option LayerId := allLayers.find? fun id => (s.layer id).isNone

/-- A record for a pass: a FREE one, reclaiming the oldest parked layer if none is FREE (R28); the run is one operation
for the low mark (R58). -/
def findRecord (s : State) : Option (LayerId × State) :=
  match s.freeRecord with
  | some id => some (id, s)
  | none =>
    let s1 := reclaimRun .record (fun x => x.freeRecord.isSome) 48 s
    s1.freeRecord.map fun id => (id, lowMark s1)

/-- The serial counter advances when a record has been taken (R28). -/
def advanceSerial (s : State) : State := { s with lys.serials := wrap32 (s.lys.serials + 1) }

/-! ## Parking -/

/-- How many PARKED layers have a stamp below `n`. -/
def State.parkedBelow (s : State) (n : Nat) : Nat :=
  (allLayers.filter fun id => (s.layer id).any fun l => l.state = .parked && l.stamp.getD 0 < n).length

/-- The renumbering of the stamps of all PARKED layers in their order, when the park counter is used up (R31). -/
def renumberStamps (s : State) : State :=
  let s1 := allLayers.foldl (fun x id =>
    match s.layer id with
    | none => x
    | some l =>
      if l.state = .parked then x.withLayer id (some { l with stamp := some (s.parkedBelow (l.stamp.getD 0)) }) else x) s
  { s1 with lys.parks := (allLayers.filter fun id => (s.layer id).any fun l => l.state = .parked).length }

/-- A layer becomes PARKED with the next park stamp and joins its track's redo list at the tail (R31). -/
def parkLayer (id : LayerId) (s : State) : State :=
  let s := if s.lys.parks = 4294967295 then renumberStamps s else s
  match s.layer id with
  | none => s
  | some l =>
    let tr := s.track l.track
    let s1 := s.withTrack l.track { tr with stack := tr.stack.filter (· ≠ id), redo := tr.redo ++ [id] }
    let s2 := s1.withLayer id (some { l with state := .parked, stamp := some s1.lys.parks })
    { s2 with lys.parks := s2.lys.parks + 1 }

end Sys2Proof.Machine
end

