-- ==== Sys2Proof/Machine/Passes.lean ====
section
/-! DEFINITION. The pass engine (chapter 4): arrivals (R69), pass starts (R76 to R79), the backfill and the live write
(R80, R81), closes and the seam (R82 to R87), cuts (R88 to R90) and aborts (R91). -/

namespace Sys2Proof.Machine

/-! ## Stored blocks -/

/-- A layer record changed, if it is not FREE. -/
def mapLayer (id : LayerId) (f : Layer → Layer) (s : State) : State :=
  match s.layer id with
  | none => s
  | some l => s.withLayer id (some (f l))

/-- A pass record changed, if a pass is open on the input. -/
def mapPass (i : Input) (f : Pass → Pass) (s : State) : State :=
  match s.pass i with
  | none => s
  | some p => s.withPass i (some (f p))

/-- The stored block of track position `pos`, in slot pos div 256 at place pos mod 256 (R27); silence where the slot is
absent. -/
def storedBlock (s : State) (map : List (Nat × Page)) (pos : Nat) : Block :=
  match slotPage map (pos / 256) with
  | some pg => readBlock s.mem pg (pos % 256)
  | none => silence

/-- A block stored at a track position of a layer, where its slot holds a page. -/
def storeBlock (id : LayerId) (pos : Nat) (b : Block) (s : State) : State :=
  match (s.layer id).bind fun l => slotPage l.map (pos / 256) with
  | some pg => s.withMem (writeBlock s.mem pg (pos % 256) b)
  | none => s

/-- The stored block of a layer. -/
def layerBlock (s : State) (id : LayerId) (pos : Nat) : Block :=
  match s.layer id with
  | some l => storedBlock s l.map pos
  | none => silence

/-- The length positions of a layer are taken modulo; an OPENING track's layer does not wrap. -/
def Layer.span (l : Layer) : Nat := l.length.getD 240000

/-! ## Arrivals (R69) -/

/-- A block filed under its stamp. -/
def fileBlock (stamp : Nat) (b : Block) : List (Nat × Block) → List (Nat × Block)
  | [] => [(stamp, b)]
  | (a, c) :: rest => if a = stamp then (stamp, b) :: rest else (a, c) :: fileBlock stamp b rest

/-- An input block arrives. -/
def arrive (i : Input) (stamp : Nat) (b : Block) (s : State) : State :=
  let r := s.input i
  let d := (stamp + 256 - s.cyc.block % 256) % 256
  if d ≤ 3 then
    let again := r.slots.any fun c => c.1 = stamp
    s.withInput i { r with slots := fileBlock stamp b r.slots,
                           stored := if again then r.stored else sat32 (r.stored + 1),
                           replaced := if again then sat32 (r.replaced + 1) else r.replaced }
  else if d ≤ 127 then s.withInput i { r with early := sat32 (r.early + 1) }
  else s.withInput i { r with late := sat32 (r.late + 1) }

/-! ## How a pass leaves its record -/

/-- The fields of the events of a block: those of the current block, or of the block period just ended. -/
def State.infoOf (s : State) (late : Bool) : BlockInfo := if late then s.cyc.last else s.info

/-- The pass record of an input becomes ENDED; a pass that ends in the current block still counts in it (R75). -/
def clearPass (late : Bool) (i : Input) (s : State) : State :=
  s.withInput i { s.input i with pass := none, endedHere := if late then (s.input i).endedHere else true }

/-- A pass is open in the current block, or has ended in it (R75). -/
def State.passInBlock (s : State) (i : Input) : Bool := (s.pass i).isSome || (s.input i).endedHere

/-- A track whose pass is gone returns to EMPTY if its lists are then empty (R24). -/
def settleTrack (t : TrackId) (s : State) : State :=
  let tr := s.track t
  if tr.state ≠ .empty && tr.stack.isEmpty && tr.redo.isEmpty && !s.passOn t then
    s.withTrack t { tr with state := .empty, mult := none, anchor := none }
  else s

/-- The measuring pass has left nothing: the timeline returns to UNSET with C = 0 (R14). -/
def stopMeasuring (kind : PassKind) (s : State) : State :=
  if kind = .measure && s.cyc.state = .measuring then s.withCyc { s.cyc.toUnset with count := 0 } else s

/-- PASS_ENDED of a pass on layer record `l` (R92). -/
def passEndedBody (i : Input) (p : Pass) (l : Option Layer) (len : Option Nat) (o : PassOutcome) (c : Option CutCause)
    (n : Nat) : EventBody :=
  let fixed : Option Nat := if p.kind = .fixed then none else l.bind (·.length)
  .passEnded i p.track p.layer ((l.map (·.serial)).getD 0) p.kind p.start o c n
    (fixed.bind fun a => len.map fun b => a / b)
    (if p.kind = .measure then fixed else none)

/-! ## Cuts (R88 to R90) and aborts (R91) -/

/-- The ramps of a cut on the written span of a layer (R88). -/
def rampEnds (id : LayerId) (s : State) : State :=
  match s.layer id with
  | none => s
  | some l =>
    if l.written = 1 then storeBlock id l.start (fadeOut (fadeIn (layerBlock s id l.start))) s
    else
      let tail := (l.start + l.written - 1) % l.span
      let s1 := storeBlock id tail (fadeOut (layerBlock s id tail)) s
      storeBlock id l.start (fadeIn (layerBlock s1 id l.start)) s1

/-- A cut ends the pass (R88). -/
def finishCut (cause : CutCause) (i : Input) (s : State) : State :=
  match s.pass i with
  | none => s
  | some p =>
    let l := s.layer p.layer
    let n := (l.map (·.written)).getD 0
    if n = 0 then
      let s1 := stopMeasuring p.kind (settleTrack p.track (dropLayer p.layer (clearPass false i s)))
      emit (passEndedBody i p l s.cyc.len .cut (some cause) 0) (lowMark s1)
    else
      let s1 := mapLayer p.layer (fun l => { l with state := .live }) (rampEnds p.layer (clearPass false i s))
      emit (passEndedBody i p l s.cyc.len .cut (some cause) n) s1

/-- The first pass of a track fixes its multiplier and its layer's length (R34). -/
def fixLength (p : Pass) (k len : Nat) (s : State) : State :=
  mapLayer p.layer (fun l => { l with length := some (k * len) })
    (s.withTrack p.track { s.track p.track with state := .looping, mult := some k })

/-- A layer's written count falls to `n` if it is above it, with the trim (R63). -/
def trimTo (id : LayerId) (n : Nat) (s : State) : State :=
  match s.layer id with
  | some l => if n < l.written then trimLayer id n s else s
  | none => s

/-- What a cut of a first pass fixes (R90). -/
def fixAtCut (marks : Bool) (p : Pass) (s : State) : State :=
  match p.kind with
  | .fixed => s
  | .measure =>
    if s.cyc.state = .measuring && 1 ≤ s.cyc.measured then
      let s1 := s.withCyc s.cyc.placeMeasured
      let len := s1.cyc.len.getD 0
      trimTo p.layer len (fixLength p 1 len (if marks then emitMarks s1 else s1))
    else s
  | .opening =>
    match s.layer p.layer, s.cyc.len with
    | some l, some len =>
      if l.length.isNone && 1 ≤ l.written then fixLength p (clampNat 1 8 (ceilDiv l.written len)) len s else s
    | _, _ => s

/-- A cut with its cause (R89); `marks`: the marks of a measuring placement are emitted (R12, R21). A cut that waits for its
backfill leaves the end of its pass as it was: absent for an OPEN pass without a close (R75, log 57). -/
def cutPass (cause : CutCause) (marks : Bool) (i : Input) (s : State) : State :=
  match s.pass i with
  | none => s
  | some p =>
    if p.cut.isSome then s
    else
      let s1 := fixAtCut marks p s
      if 0 < p.backfill then s1.withPass i (some { p with cut := some cause }) else finishCut cause i s1

/-- Every open pass is cut (R19, R154), the inputs in ascending order: the order in which the pages of passes with nothing
written return to the free list (log 53). -/
def cutAll (cause : CutCause) (marks : Bool) (s : State) : State :=
  allInputs.foldl (fun s i => cutPass cause marks i s) s

/-- A pass is aborted (R91). The low mark is tested with it unless the caller's operation is larger; no event is sent for
HUB_RESET. -/
def abortPass (mark : Bool) (event : Bool) (i : Input) (s : State) : State :=
  match s.pass i with
  | none => s
  | some p =>
    let s1 := stopMeasuring p.kind (settleTrack p.track (dropLayer p.layer (clearPass false i s)))
    let s2 := if mark then lowMark s1 else s1
    if event then emit (passEndedBody i p (s.layer p.layer) s.cyc.len .aborted none 0) s2 else s2

/-- The most recently opened of two passes. -/
def newerPass (s : State) (t : TrackId) (best : Option (Input × Nat)) (i : Input) : Option (Input × Nat) :=
  match s.pass i with
  | none => best
  | some p =>
    if p.track = t then
      match best with
      | none => some (i, p.order)
      | some (_, o) => if o < p.order then some (i, p.order) else best
    else best

/-- The input of the most recently opened pass on a track (R75). -/
def State.newestPass (s : State) (t : TrackId) : Option Input := (allInputs.foldl (newerPass s t) none).map (·.1)

/-- Every pass open on a track is aborted, most recently opened first (R41, R42). -/
def abortTrack (t : TrackId) : Nat → State → State
  | 0, s => s
  | n + 1, s =>
    match s.newestPass t with
    | none => s
    | some i => abortTrack t n (abortPass true true i s)

/-! ## Starts (R76 to R79) -/

/-- The kind of a pass that starts on a track now (R76). -/
def State.kindFor (s : State) (t : TrackId) : PassKind :=
  if s.cyc.state = .unset then .measure else if (s.track t).state = .looping then .fixed else .opening

/-- Checks 3 to 6 of R77. -/
def State.openCheck (s : State) (i : Input) (t : TrackId) : Option ReplyCode :=
  if s.cyc.state ≠ .unset && s.cyc.state ≠ .running && !s.cyc.afterFourthTap then some .wrongState
  else if (s.pass i).isSome then some .inputBusy
  else if (s.track t).state = .opening then some .trackOpening
  else if 12 ≤ (s.track t).stack.length then some .stackFull
  else none

/-- Check 7 of R77: an EMPTY track off a cycle boundary that the snap does not reach. -/
def State.offBoundary (s : State) (t : TrackId) (d : Nat) : Bool :=
  s.cyc.state = .running && (s.track t).state = .empty && s.cyc.pos.getD 0 ≠ 0 && d < s.cyc.pos.getD 0

/-- A slot added to an ascending list without duplicates. -/
def addSlot (x : Nat) : List Nat → List Nat
  | [] => [x]
  | y :: ys => if x < y then x :: y :: ys else if x = y then y :: ys else y :: addSlot x ys

/-- The slots that positions `start` to `start + d`, modulo `len`, touch (R79). -/
def touchedSlots (start d len : Nat) : List Nat :=
  (List.range (d + 1)).foldl (fun acc j => addSlot ((start + j) % len / 256) acc) []

/-- The track position of the current block for a pass of kind `kind` (R78). -/
def State.herePos (s : State) (kind : PassKind) (t : TrackId) : Nat :=
  match kind with
  | .measure => 0
  | .opening => s.cyc.pos.getD 0
  | .fixed => (s.trackPos t).getD 0

/-- The pages of a start: the state, the snap distance taken (none: no page to be had) (R78, R79). -/
def settlePages (id : LayerId) (here d len : Nat) (s : State) : State × Option Nat :=
  let r := if 1 ≤ d then claimGroup id (touchedSlots ((here + len - d) % len) d len) s else (s, false)
  if r.2 then (r.1, some d)
  else
    let r1 := claimPage id (here / 256) r.1
    (r1.1, if r1.2 then some 0 else none)

/-- The unpinned layers of a track's redo list are freed, head to tail (R32). The track is not tested for EMPTY: its pass
is starting (log 10). -/
def freeRedo (t : TrackId) (s : State) : State :=
  let gone := s.havingPin false (s.track t).redo
  if gone.isEmpty then s else lowMark (gone.foldl (fun s id => dropLayer id s) s)

/-- The pass joins its track, its input and the timeline (R78, steps 4 and 5). Its opening order is the opening counter's
value before the counter advances (log 45). -/
def enterPass (i : Input) (t : TrackId) (kind : PassKind) (id : LayerId) (here start d : Nat) (s : State) : State :=
  let tr := s.track t
  let first : Bool := tr.state = .empty
  let s1 := s.withTrack t
    { tr with stack := tr.stack ++ [id], state := if first then .opening else tr.state,
              anchor := if first then some (if kind = .measure then 0 else s.cyc.count) else tr.anchor }
  let s2 := if kind = .measure then s1.withCyc s1.cyc.startMeasuring else s1
  let s3 := s2.withPass i (some
    { state := .writing, track := t, kind := kind, layer := id, start := start, snap := d,
      close := if kind = .fixed then some start else none, writePos := here, backfill := d, cut := none,
      order := s2.pse.openings, spillReady := false })
  { s3 with pse.openings := s3.pse.openings + 1 }

/-- A pass starts in the current block with snap distance `d` (R78). The serial counter advances as the record is taken
(R28), a start refused NO_ROOM included (log 11). -/
def startPass (i : Input) (t : TrackId) (d : Nat) (s : State) : State × ReplyCode :=
  let kind := s.kindFor t
  let length := if kind = .fixed then s.trackLen t else none
  let here := s.herePos kind t
  match findRecord (freeRedo t s) with
  | none => (settleTrack t (freeRedo t s), .noLayer)
  | some (id, s1) =>
    let serial := s1.lys.serials
    let s2 := (advanceSerial s1).withLayer id (some
      { state := .recording, track := t, input := some i, length := length, start := 0, written := 0, map := [],
        level := 256, pinned := false, serial := serial, stamp := none })
    match settlePages id here d (length.getD 240000) s2 with
    | (s3, none) => (settleTrack t (dropLayer id s3), .noRoom)
    | (s3, some e) =>
      let start := if kind = .fixed then (here + length.getD 240000 - e) % length.getD 240000 else 0
      let s4 := enterPass i t kind id here start e
        (mapLayer id (fun l => { l with start := start, written := e }) s3)
      (emit (.passStarted i t id serial kind start e) s4, .done)

/-- A PASS_OPEN executes with snap distance `d` (R77, R78). -/
def execOpen (i : Input) (t : TrackId) (d : Nat) (s : State) : State × ReplyCode :=
  match s.openCheck i t with
  | some c => (s, c)
  | none => if s.offBoundary t d then (s, .wrongState) else startPass i t d s

/-! ## Writing (R80, R81) -/

/-- One block of the backfill: the `c`-th block of the snapped span, from the ring (R80). -/
def backfillOne (i : Input) (p : Pass) (c : Nat) (s : State) : State :=
  let age := p.snap - c + c / 8
  let len := ((s.layer p.layer).map Layer.span).getD 240000
  storeBlock p.layer ((p.start + c) % len) ((s.input i).ring.getD (age - 1) silence) s

/-- The backfill of one block period, up to 8 blocks, the oldest first (R80). -/
def backfillCopy (i : Input) (s : State) : State :=
  match s.pass i with
  | none => s
  | some p =>
    let n := min 8 p.backfill
    let c := p.snap - p.backfill
    mapPass i (fun p => { p with backfill := p.backfill - n })
      ((List.range n).foldl (fun s j => backfillOne i p (c + j) s) s)

/-- The slot of a write position holds a page, claimed if it was absent (R81). -/
def claimSlot (id : LayerId) (slot : Nat) (s : State) : State × Bool :=
  if ((s.layer id).bind fun l => slotPage l.map slot).isSome then (s, true) else claimPage id slot s

/-- The resolved block is written at the pass's write position, or the pass is cut STARVED (R81). In SPILL_WAIT the write
position keeps the value the last write left (log 46). -/
def liveWrite (i : Input) (b : Block) (s : State) : State :=
  match s.pass i with
  | none => s
  | some p =>
    if p.state = .writing && p.cut.isNone then
      match claimSlot p.layer (p.writePos / 256) s with
      | (s1, false) => cutPass .starved true i s1
      | (s1, true) =>
        let len := ((s1.layer p.layer).map Layer.span).getD 240000
        let n := if p.kind = .fixed then (p.writePos + len - p.start) % len + 1 else p.writePos + 1
        let w := if p.kind = .fixed then (p.writePos + 1) % len else p.writePos + 1
        mapPass i (fun p => { p with writePos := w })
          (mapLayer p.layer (fun l => { l with written := n }) (storeBlock p.layer p.writePos b s1))
    else s

/-- A cut pass whose backfill has finished ends (R89). -/
def endCutBackfill (i : Input) (s : State) : State :=
  match s.pass i with
  | some p =>
    match p.cut with
    | some c => if p.backfill = 0 then finishCut c i s else s
    | none => s
  | none => s

/-- The backfill of a cut pass can finish in the current block period. -/
def State.cutEndsHere (s : State) (i : Input) : Bool := (s.pass i).any fun p => p.cut.isSome && p.backfill ≤ 8

/-- The last copies of a cut pass's backfill are made in the current block, and the pass ends in it (R80, R89). -/
def finishCutBackfill (i : Input) (s : State) : State :=
  if s.cutEndsHere i then endCutBackfill i (backfillCopy i s) else s

/-! ## Closes and the seam (R82 to R87) -/

/-- The pass ends COMPLETE: the spill is blended into the head block and the layer becomes LIVE (R83, R33). -/
def completePass (late : Bool) (spill : Block) (i : Input) (s : State) : State :=
  match s.pass i with
  | none => s
  | some p =>
    let s1 := storeBlock p.layer p.start (seamBlend (layerBlock s p.layer p.start) spill) s
    let s2 := clearPass late i (mapLayer p.layer (fun l => { l with state := .live }) s1)
    let l := s2.layer p.layer
    emitAt (s2.infoOf late) (passEndedBody i p l s2.cyc.len .complete none ((l.map (·.written)).getD 0)) s2

/-- The pass waits for its spill, its close at track position `e`. -/
def awaitSpill (i : Input) (e : Nat) (s : State) : State :=
  mapPass i (fun p => { p with state := .spillWait, close := some e, spillReady := false }) s

/-- The close of a MEASURE pass in the current block (R12, R87). One with L < m ends here, and its layer may be a candidate
from the current block on (log 47). -/
def closeMeasure (i : Input) (p : Pass) (s : State) : State :=
  let m := s.cyc.measured
  let s1 := emitMarks (s.withCyc s.cyc.placeMeasured)
  let len := s1.cyc.len.getD 0
  let s2 := fixLength p 1 len s1
  if len < m then
    let spill := layerBlock s2 p.layer len
    completePass false spill i (mapPass i (fun p => { p with close := some len }) (trimTo p.layer len s2))
  else if len = m then awaitSpill i len s2
  else mapPass i (fun p => { p with close := some len }) s2

/-- An OPEN pass closes on the current cycle boundary with multiplier `k` (R85). -/
def closeAtBoundary (i : Input) (p : Pass) (k len : Nat) (s : State) : State :=
  awaitSpill i (k * len) (fixLength p k len s)

/-- The whole cycles from a pass's start boundary to the current cycle (R85). -/
def State.wholeCycles (s : State) (p : Pass) : Nat :=
  cyclesSince s.cyc.count ((s.track p.track).anchor.getD 0)

/-- The close of an OPEN pass executes with snap distance `d` (R85, R86). -/
def closeOpening (i : Input) (p : Pass) (d : Nat) (s : State) : State :=
  let len := s.cyc.len.getD 0
  let k := s.wholeCycles p
  if k = 0 then mapPass i (fun p => { p with close := some len }) s
  else if d = 0 then closeAtBoundary i p k len s
  else
    let spill := (s.input i).ring.getD (d - 1) silence
    completePass false spill i
      (mapPass i (fun p => { p with close := some (k * len) }) (trimTo p.layer (k * len) (fixLength p k len s)))

/-- The close of the pass is already fixed (R82). -/
def Pass.closeFixed (p : Pass) : Bool :=
  p.state = .spillWait || p.cut.isSome || (p.kind ≠ .fixed && p.close.isSome)

/-- A PASS_CLOSE executes with snap distance `d` (R82). -/
def execClose (i : Input) (d : Nat) (s : State) : State × ReplyCode :=
  match s.pass i with
  | none => (s, .noPass)
  | some p =>
    if p.closeFixed then (s, .done)
    else match p.kind with
      | .measure => if s.cyc.state = .measuring then (closeMeasure i p s, .done) else (s, .done)
      | .opening => (closeOpening i p d s, .done)
      | .fixed => (cutPass .closed true i s, .done)

/-! ## The steps of a pass that come about by themselves -/

/-- The pass has written its whole length (R84, R87). -/
def State.endReached (s : State) (i : Input) : Bool :=
  match s.pass i with
  | none => false
  | some p =>
    p.state = .writing && p.cut.isNone &&
      ((s.layer p.layer).any fun l => l.length.isSome && l.length = some l.written)

/-- A pass that has written its whole length becomes SPILL_WAIT (R84). -/
def reachEnd (i : Input) (s : State) : State :=
  if s.endReached i then mapPass i (fun p => { p with state := .spillWait, spillReady := false }) s else s

/-- The spill of a pass in SPILL_WAIT has been resolved: it is blended and the pass ends (R84, R85, R87). -/
def blendSpill (i : Input) (s : State) : State :=
  match s.pass i with
  | some p =>
    if p.state = .spillWait && p.spillReady then completePass true ((s.input i).ring.getD 0 silence) i s else s
  | none => s

/-- The measuring pass has written Lmax(B) blocks (R13). -/
def State.measureFull (s : State) (i : Input) : Bool :=
  s.cyc.state = .measuring && s.cyc.measured = lmax s.cyc.setting &&
    ((s.pass i).any fun p => p.kind = .measure && p.state = .writing && p.cut.isNone && p.close.isNone)

/-- The automatic close of the measuring pass (R13). -/
def autoClose (s : State) : State :=
  allInputs.foldl (fun s i =>
    match s.pass i with
    | some p => if s.measureFull i then closeMeasure i p s else s
    | none => s) s

/-- An OPEN pass whose length is not yet fixed stands on a cycle boundary. -/
def State.openAtBoundary (s : State) (p : Pass) : Bool :=
  p.kind = .opening && p.state = .writing && p.cut.isNone && s.cyc.state = .running && s.cyc.pos = some 0 &&
    ((s.layer p.layer).any fun l => l.length.isNone)

/-- An OPEN pass at its eighth cycle boundary closes with k = 8 (R85). -/
def eighthBoundary (i : Input) (s : State) : State :=
  match s.pass i with
  | some p =>
    if s.openAtBoundary p && p.close.isNone && 8 ≤ s.wholeCycles p then
      closeAtBoundary i p 8 (s.cyc.len.getD 0) s
    else s
  | none => s

/-- An OPEN pass whose close was carried forward closes at the next cycle boundary (R85). -/
def carriedClose (i : Input) (s : State) : State :=
  match s.pass i with
  | some p =>
    if s.openAtBoundary p && p.close.isSome && 1 ≤ s.wholeCycles p then
      closeAtBoundary i p (s.wholeCycles p) (s.cyc.len.getD 0) s
    else s
  | none => s

end Sys2Proof.Machine
end

