-- ==== Sys2Proof/Machine/Bounce.lean ====
section
/-! DEFINITION. The bounce engine (chapter 7): start checks and claim (R60, R134), the waiting list (R133, R135), strokes
(R136 to R138), ends (R139, R140), aborts (R141, R62) and the loss of a link (R144). -/

namespace Sys2Proof.Machine

/-- The request code of BOUNCE (R192). -/
def bounceCode : Byte := 0x11

/-! ## Strokes -/

/-- The positions stroke `k` covers (R136). -/
def strokeSpan (len k : Nat) : Nat := min 32 (len - 32 * k)

/-- The cost of stroke `k` in transfers (R136). -/
def strokeCost (mode : BounceMode) (count len k : Nat) : Nat :=
  (if mode = .commit then count + 1 else count) * strokeSpan len k

/-- The engine state while a bounce of this mode has a stroke in flight (R132). -/
def BounceMode.engine : BounceMode → Engine
  | .scan => .scanning
  | .commit => .committing

/-- A stroke is in flight (R150). -/
def State.strokeInFlight (s : State) : Bool := s.bne.active.any fun b => b.stroke.isSome

/-- A layer is a source of the active bounce (R146). -/
def State.isSource (s : State) (id : LayerId) : Bool :=
  s.bne.active.any fun b => b.sources.any fun x => x.layer = id

/-! ## The start (R134, R60) -/

/-- Start checks 1 and 2 of R134. -/
def State.bounceCheck (s : State) (t : TrackId) (count : Nat) : Option ReplyCode :=
  let tr := s.track t
  let bottom := tr.stack.take count
  if tr.state ≠ .looping || bottom.length < count ||
      !(bottom.all fun id => (s.layer id).any fun l => l.state = .live) then some .wrongState
  else if bottom.any fun id => (s.layer id).any (·.pinned) then some .pinned
  else none

/-- A page added to an ascending list. -/
def insertPage (x : Page) : List Page → List Page
  | [] => [x]
  | y :: ys => if x < y then x :: y :: ys else y :: insertPage x ys

/-- The pages of a bounce reservation, ascending. -/
def sortPages (ps : List Page) : List Page := ps.foldr insertPage []

/-- The destination record of a commit (R35). -/
def formingLayer (t : TrackId) (len serial : Nat) : Layer where
  state := .forming
  track := t
  input := none
  length := some len
  start := 0
  written := 0
  map := []
  level := 256
  pinned := false
  serial := serial
  stamp := none

/-- The start claim of a commit (R60): the destination and the state, or the code of the refusal. -/
def bounceClaim (t : TrackId) (s : State) : Except ReplyCode (LayerId × State) :=
  let len := (s.trackLen t).getD 0
  let need := ceilDiv len 256
  if s.freeRecord.isNone && s.victim.isNone then .error .noLayer
  else if s.freeCount + s.reclaimable < need then .error .noRoom
  else
    let s1 := reclaimRun .bounce (fun x => x.freeRecord.isSome && need ≤ x.freeCount) 48 s
    match s1.freeRecord with
    | none => .error .noLayer
    | some id =>
      let s2 := advanceSerial (s1.withLayer id (some (formingLayer t len s1.lys.serials)))
      .ok (id, lowMark (s2.withPgp { s2.pgp with free := s2.pgp.free.drop need,
                                                 reserved := sortPages (s2.pgp.reserved ++ s2.pgp.free.take need) }))

/-- A bounce starts in the current block (R134), or the code of the check that fails. -/
def startBounce (t : TrackId) (count : Nat) (mode : BounceMode) (lk : Link) (tag : Byte) (s : State) :
    Except ReplyCode State :=
  match s.bounceCheck t count with
  | some c => .error c
  | none =>
    let len := (s.trackLen t).getD 0
    let sources := ((s.track t).stack.take count).map fun id =>
      (⟨id, ((s.layer id).map (·.serial)).getD 0, ((s.layer id).map (·.level)).getD 0⟩ : Source)
    let claimed : Except ReplyCode (Option LayerId × State) :=
      match mode with
      | .scan => .ok (none, s)
      | .commit =>
        match bounceClaim t s with
        | .ok (id, s1) => .ok (some id, s1)
        | .error c => .error c
    match claimed with
    | .error c => .error c
    | .ok (dest, s1) =>
      let b : Bounce :=
        { track := t, count := count, mode := mode, station := lk, tag := tag, owed := true, sources := sources,
          dest := dest, total := ceilDiv len 32, done := 0, stroke := some (0, strokeCost mode count len 0), peak := 0,
          clips := 0, suspendPending := false }
      .ok ((s1.withBne { s1.bne with active := some b, engine := mode.engine }).withTmc { s1.tmc with credit := 0 })

/-! ## The waiting list (R135) -/

/-- The waiting list may advance (R135). -/
def State.advanceDue (s : State) : Bool :=
  s.bne.engine = .idle && s.tmc.mem = .active && !s.bne.waiting.isEmpty

/-- The front entry is taken: it starts, or is answered the code of the failing check and the next is taken (R135). -/
def advanceWaiting : Nat → State → State
  | 0, s => s
  | n + 1, s =>
    match s.bne.waiting with
    | [] => s
    | w :: rest =>
      let s1 := s.withBne { s.bne with waiting := rest }
      match startBounce w.track w.count w.mode w.station w.tag s1 with
      | .ok s2 => s2
      | .error c => advanceWaiting n (reply w.station bounceCode w.tag true c .none s1)

/-- The advance of the waiting list, if it is due. -/
def advanceQueue (s : State) : State := if s.advanceDue then advanceWaiting s.bne.waiting.length s else s

/-! ## The sum (R138) -/

/-- One source's terms at a track position. -/
def sourceTerms (s : State) (pos : Nat) (x : Source) : Block :=
  match s.layer x.layer with
  | some l =>
    if inSpan l.start l.written l.span pos then (storedBlock s l.map pos).map fun v => v * x.level / 256 else silence
  | none => silence

/-- The exact sums of one position. -/
def bounceSum (s : State) (sources : List Source) (pos : Nat) : Block :=
  sources.foldl (fun acc x => List.zipWith (· + ·) acc (sourceTerms s pos x)) silence

/-- The peak after the sums of a block. -/
def blockPeak (peak : Nat) (b : Block) : Nat := b.foldl (fun m v => max m v.natAbs) peak

/-- The frames of a block that lie outside the sample range. -/
def clippedFrames (b : Block) : Nat := (b.filter fun v => saturate v ≠ v).length

/-! ## The completion of a stroke (R137) -/

/-- A slot of the destination that has no page takes the lowest reserved page (R61). -/
def destSlot (id : LayerId) (slot : Nat) (s : State) : State :=
  match s.layer id, s.pgp.reserved with
  | some l, pg :: rest =>
    if (slotPage l.map slot).isSome then s
    else (s.withPgp { s.pgp with reserved := rest }).withLayer id (some { l with map := putSlot slot pg l.map })
  | _, _ => s

/-- The saturated sums of one position written to the destination. -/
def writeDest (id : LayerId) (pos : Nat) (b : Block) (s : State) : State :=
  mapLayer id (fun l => { l with written := l.written + 1 }) (storeBlock id pos b (destSlot id (pos / 256) s))

/-- The stroke buffer of a stroke (R137). -/
def strokeSums (s : State) (b : Bounce) (k len : Nat) : List Block :=
  (List.range (strokeSpan len k)).map fun j => bounceSum s b.sources (32 * k + j)

/-- The stroke's saturated sums written to the destination of a commit. -/
def writeStroke (b : Bounce) (k : Nat) (sums : List Block) (s : State) : State :=
  match b.dest with
  | none => s
  | some id => (sums.zipIdx).foldl (fun s x => writeDest id (32 * k + x.2) (x.1.map saturate) s) s

/-- The commit rewrites the track's stack (R36): the sources are freed, the destination is LIVE at the bottom. The track is
not tested for EMPTY between the two (log 51). -/
def commitStack (b : Bounce) (id : LayerId) (s : State) : State :=
  let s1 := b.sources.foldl (fun s x => dropLayer x.layer s) s
  let s2 := s1.withTrack b.track { s1.track b.track with stack := id :: (s1.track b.track).stack }
  lowMark (mapLayer id (fun l => { l with state := .live }) s2)

/-- The destination of a commit, with its serial. -/
def State.destOf (s : State) (b : Bounce) : Option (LayerId × Nat) :=
  b.dest.map fun id => (id, ((s.layer id).map (·.serial)).getD 0)

/-- The bounce ends COMPLETE (R139, R140). -/
def endBounce (b : Bounce) (s : State) : State :=
  let s1 := match b.dest with
    | some id => commitStack b id s
    | none => s
  let dest := s1.destOf b
  let s2 := emit (.bounceEnded b.track b.count b.mode none b.station b.done b.total b.peak b.clips dest) s1
  let s3 := if b.owed then reply b.station bounceCode b.tag true .done (.bounce b.peak b.clips dest) s2 else s2
  (s3.withBne { s3.bne with active := none, engine := .idle }).withTmc { s3.tmc with credit := 0 }

/-- What follows a stroke: the end, the suspension (R142), or the next stroke in flight. -/
def afterStroke (b : Bounce) (len : Nat) (s : State) : State :=
  if b.done = b.total then endBounce b (s.withBne { s.bne with active := some b })
  else if b.suspendPending then
    s.withBne { s.bne with active := some { b with stroke := none, suspendPending := false }, engine := .suspended }
  else
    s.withBne { s.bne with active := some { b with stroke := some (b.done, strokeCost b.mode b.count len b.done) } }

/-- The stroke in flight is paid for by the credit (R137). -/
def State.strokeDue (s : State) : Bool :=
  s.bne.active.any fun b => b.stroke.any fun k => k.2 ≤ s.tmc.credit

/-- The stroke in flight completes (R137). -/
def strokeStep (s : State) : State :=
  match s.bne.active with
  | none => s
  | some b =>
    match b.stroke with
    | none => s
    | some (k, cost) =>
      if cost ≤ s.tmc.credit then
        let len := (s.trackLen b.track).getD 0
        let sums := strokeSums s b k len
        let s1 := s.withTmc { s.tmc with credit := s.tmc.credit - cost }
        let s2 := s1.withBne { s1.bne with buffer := sums.map (·.map saturate) ++ s1.bne.buffer.drop sums.length }
        let s3 := writeStroke b k sums s2
        afterStroke { b with done := b.done + 1, peak := sums.foldl blockPeak b.peak,
                             clips := b.clips + (sums.map clippedFrames).sum } len s3
      else s

/-- The completions of one boundary: while the credit covers the stroke in flight (R137). -/
def strokes : Nat → State → State
  | 0, s => s
  | n + 1, s => if s.strokeDue then strokes n (strokeStep s) else s

/-! ## Aborts (R141) -/

/-- The destination is freed and the reservation returned (R62). -/
def returnBouncePages (mark : Bool) (b : Bounce) (s : State) : State :=
  match b.dest with
  | none => s
  | some id =>
    let s1 := dropLayer id s
    let s2 := givePages s1.pgp.reserved s1
    let s3 := s2.withPgp { s2.pgp with reserved := [] }
    if mark then lowMark s3 else s3

/-- The active bounce is aborted with its cause (R141); the low mark is tested unless the caller's operation is
larger. -/
def abortBounce (mark : Bool) (cause : BounceAbort) (s : State) : State :=
  match s.bne.active with
  | none => s
  | some b =>
    let s1 := returnBouncePages mark b s
    let s2 := emit (.bounceEnded b.track b.count b.mode (some cause) b.station b.done b.total b.peak b.clips none) s1
    let s3 := if b.owed then reply b.station bounceCode b.tag true .cancelled (.bounce b.peak b.clips none) s2 else s2
    (s3.withBne { s3.bne with active := none, engine := .idle }).withTmc { s3.tmc with credit := 0 }

/-- The active bounce is aborted if it is on this track (R41, R42). -/
def abortBounceOn (t : TrackId) (cause : BounceAbort) (s : State) : State :=
  if s.bne.active.any fun b => b.track = t then abortBounce true cause s else s

/-- Every waiting entry is answered CANCELLED and the list is empty (R49, R145). -/
def cancelWaiting (s : State) : State :=
  s.bne.waiting.foldl (fun s w => reply w.station bounceCode w.tag true .cancelled .none s)
    (s.withBne { s.bne with waiting := [] })

/-- The link of station `lk` has left RUN (R144). -/
def bounceDeparture (lk : Link) (s : State) : State :=
  s.withBne { s.bne with
    waiting := s.bne.waiting.filter fun w => w.station ≠ lk,
    active := s.bne.active.map fun b => if b.station = lk then { b with owed := false } else b }

end Sys2Proof.Machine
end

