-- ==== Sys2Proof/Machine/Stack.lean ====
section
/-! DEFINITION. The operations on a track's stack and redo list: undo (R38, R39), redo (R40), clear (R41), erase (R42),
mute (R43), and the freeing of the whole loop set (R49). -/

namespace Sys2Proof.Machine

/-! ## Undo and redo -/

/-- The head of a full redo list is freed (R39). -/
def makeRedoRoom (t : TrackId) (s : State) : State :=
  if 12 ≤ (s.track t).redo.length then freeLayers ((s.track t).redo.take 1) s else s

/-- LAYER_UNDO executes (R38, R39). -/
def execUndo (t : TrackId) (s : State) : State × ReplyCode :=
  match s.newestPass t with
  | some i => (abortPass true true i s, .done)
  | none =>
    match (s.track t).stack.getLast? with
    | none => (s, .nothing)
    | some top =>
      let redo := (s.track t).redo
      if 12 ≤ redo.length && !(s.havingPin true (redo.take 1)).isEmpty then (s, .redoFull)
      else
        let s1 := makeRedoRoom t s
        let s2 := if s1.isSource top then abortBounce true .undo s1 else s1
        (parkLayer top s2, .done)

/-- LAYER_REDO executes (R40). -/
def execRedo (t : TrackId) (s : State) : State × ReplyCode :=
  let tr := s.track t
  match tr.redo.getLast? with
  | none => (s, .nothing)
  | some id =>
    if 12 ≤ tr.stack.length then (s, .stackFull)
    else
      (mapLayer id (fun l => { l with state := .live, stamp := none })
        (s.withTrack t { tr with redo := tr.redo.dropLast, stack := tr.stack ++ [id] }), .done)

/-! ## Clear and erase -/

/-- The layers of a list that are LIVE. -/
def State.liveOf (s : State) (ids : List LayerId) : List LayerId :=
  ids.filter fun id => (s.layer id).any fun l => l.state = .live

/-- The layers of a list are parked one at a time, the last first (R41, R42). -/
def parkTopFirst (ids : List LayerId) (s : State) : State := ids.reverse.foldl (fun s id => parkLayer id s) s

/-- TRACK_CLEAR executes (R41). -/
def execClear (t : TrackId) (s : State) : State × ReplyCode :=
  let live := (s.liveOf (s.track t).stack).length
  let pins := (s.havingPin true (s.track t).redo).length
  if (s.track t).stack.isEmpty && !s.passOn t then (s, .nothing)
  else if 12 < live + pins then (s, .redoFull)
  else
    let s1 := abortBounceOn t .clear (abortTrack t 4 s)
    let redo := (s1.track t).redo
    let s2 := freeLayers ((s1.havingPin false redo).take (redo.length - (12 - live))) s1
    (parkTopFirst (s2.track t).stack s2, .done)

/-- TRACK_ERASE executes (R42). -/
def execErase (t : TrackId) (s : State) : State × ReplyCode :=
  let tr := s.track t
  if tr.state = .empty then (s, .nothing)
  else if 12 < (s.havingPin true tr.stack).length + (s.havingPin true tr.redo).length then (s, .redoFull)
  else
    let s1 := abortBounceOn t .erase (abortTrack t 4 s)
    let s2 := freeLayers (s1.havingPin false (s1.track t).stack ++ s1.havingPin false (s1.track t).redo) s1
    (parkTopFirst (s2.track t).stack s2, .ok)

/-! ## Mute -/

/-- TRACK_MUTE executes (R43). -/
def execMute (t : TrackId) (on : Bool) (s : State) : State × ReplyCode :=
  (s.withTrack t { s.track t with mute := on }, .done)

/-! ## The loop set cleared (R49) -/

/-- Every layer of a track is freed: the stack bottom to top, then the redo list head to tail. -/
def freeTrack (s : State) (t : TrackId) : State :=
  ((s.track t).stack ++ (s.track t).redo).foldl (fun s id => dropLayer id s) s

/-- The loop set is ended (R49): passes aborted, the bounce aborted and its waiting list emptied, every layer freed, every
track EMPTY. The low mark is tested once, for the whole (R65). -/
def clearSong (s : State) : State :=
  let s1 := allInputs.foldl (fun s i => abortPass false true i s) s
  let s2 := cancelWaiting (abortBounce false .songClear s1)
  let s3 := allTracks.foldl freeTrack s2
  let s4 := s3.withPgp { s3.pgp with pinnedTotal := 0 }
  lowMark { s4 with lys.tracks := Vector.replicate 8 Track.reset }

end Sys2Proof.Machine
end

