-- ==== Sys2Proof/Machine/Queue.lean ====
section
/-! DEFINITION. The action queue (chapter 5): timing (R95 to R98), taking (R99), entries (R100 to R102), execution (R103 to
R105), cancellation and removal (R106, R107), and the stop of the timeline (R10, R19). -/

namespace Sys2Proof.Machine

/-- What serving a request answers: the state, the reply's code and its payload. -/
abbrev Answer := State × ReplyCode × Payload

/-- An answer without a payload. -/
def answer (s : State) (code : ReplyCode) : Answer := (s, code, .none)

/-! ## The actions -/

/-- The request code of an action (R192). -/
def Action.code : Action → Byte
  | .transportStop => 0x03
  | .passOpen _ _ => 0x06
  | .passClose _ => 0x07
  | .layerUndo _ => 0x08
  | .layerRedo _ => 0x09
  | .trackClear _ => 0x0B
  | .trackMute _ _ => 0x0A

/-- Two actions have the same kind and the same target (R94, R102). -/
def Action.sameTarget : Action → Action → Bool
  | .transportStop, .transportStop => true
  | .passOpen i _, .passOpen j _ => i = j
  | .passClose i, .passClose j => i = j
  | .layerUndo t, .layerUndo u => t = u
  | .layerRedo t, .layerRedo u => t = u
  | .trackClear t, .trackClear u => t = u
  | .trackMute t _, .trackMute u _ => t = u
  | _, _ => false

/-! ## Cancellation (R106, R107) -/

/-- The timeline-stopped notice: every entry is answered CANCELLED and the queue is empty (R106). -/
def cancelQueue (s : State) : State :=
  s.aqu.queue.foldl (fun s e => reply e.station e.action.code e.tag true .cancelled .none s)
    (s.withAqu { s.aqu with queue := [] })

/-- The link of a station has left RUN: its entries are removed without a reply (R107). -/
def removeEntries (lk : Link) (s : State) : State :=
  s.withAqu { s.aqu with queue := s.aqu.queue.filter fun e => e.station ≠ lk }

/-! ## The stop (R10, R19) -/

/-- TRANSPORT_STOP executes: the abandoned count-in (R10), or the stop of a RUNNING timeline (R19). -/
def execStop (s : State) : State × ReplyCode :=
  if s.cyc.state = .counting then (cancelQueue (s.withCyc s.cyc.toUnset), .done)
  else if s.cyc.state = .running then (cancelQueue (cutAll .stop true (leaveRunning s)), .done)
  else (s, .wrongState)

/-! ## Timing (R95 to R98) -/

/-- When an action is executed: at once with a snap distance, or at a due block (R94). -/
inductive Timing where
  | atOnce (snap : Nat)
  | due (block : Nat)
deriving DecidableEq, Repr

/-- The track of an action, for the TRACK mode (R96, R97). -/
def State.actionTrack (s : State) : Action → Option TrackId
  | .transportStop => none
  | .passOpen _ t => some t
  | .passClose i => (s.pass i).map (·.track)
  | .layerUndo t => some t
  | .layerRedo t => some t
  | .trackClear t => some t
  | .trackMute t _ => some t

/-- The length of the timing mode's period and the distance back to its last boundary, in RUNNING; none for NOW
(R96, R98). TRACK without a track length is CYCLE. -/
def State.period (s : State) (mode : Quantize) (t : Option TrackId) : Option (Nat × Nat) :=
  let p := s.cyc.pos.getD 0
  let len := s.cyc.len.getD 0
  match mode with
  | .now => none
  | .beat => some (s.cyc.beatLen, p % s.cyc.beatLen)
  | .cycle => some (len, p)
  | .track =>
    match t.bind s.trackLen, t.bind s.trackPos with
    | some n, some q => some (n, q)
    | _, _ => some (len, p)

/-- The mode an action is timed by and whether it has grace (R97). -/
def State.timingMode (s : State) (a : Action) (mode : Quantize) : Quantize × Bool :=
  match a with
  | .passOpen _ t => if (s.track t).state = .looping then (mode, true) else (.cycle, true)
  | .passClose i =>
    match s.pass i with
    | some p =>
      match p.kind with
      | .opening => (.cycle, true)
      | .fixed => (mode, false)
      | .measure => (.now, false)
    | none => (.now, false)
  | _ => (mode, false)

/-- The timing of an action (R95 to R98). -/
def State.timing (s : State) (lk : Link) (a : Action) (mode : Quantize) : Timing :=
  match s.cyc.state, a, s.cyc.schedStart with
  | .counting, .passOpen _ _, some n => .due n
  | .running, _, _ =>
    let m := s.timingMode a mode
    match s.period m.1 (s.actionTrack a) with
    | none => .atOnce 0
    | some (len, r) =>
      if m.2 && r ≤ (s.station lk).grace then .atOnce r else .due (wrap32 (s.cyc.block + (len - r)))
  | _, _, _ => .atOnce 0

/-! ## Execution (R103 to R105) -/

/-- A PASS_CLOSE entry meets the pass it was taken against (R105). -/
def State.boundPass (s : State) (i : Input) (b : LayerId × Nat) : Bool :=
  (s.pass i).any fun p => p.layer = b.1 && (s.layer b.1).any fun l => l.serial = b.2

/-- The owner executes an action with a snap distance (R94); the code is its result. -/
def execAction (a : Action) (d : Nat) (s : State) : State × ReplyCode :=
  match a with
  | .transportStop => execStop s
  | .passOpen i t => execOpen i t d s
  | .passClose i => execClose i d s
  | .layerUndo t => execUndo t s
  | .layerRedo t => execRedo t s
  | .trackClear t => execClear t s
  | .trackMute t on => execMute t on s

/-- An entry is executed at its due block, against the state as the entries before it left it (R103 to R105). -/
def execEntry (e : Entry) (s : State) : State × ReplyCode :=
  match e.action, e.passLayer with
  | .passClose i, some b => if s.boundPass i b then execClose i 0 s else (s, .noPass)
  | _, _ => execAction e.action 0 s

/-- The front entry is due in the current block. -/
def State.entryDue (s : State) : Bool :=
  match s.aqu.queue with
  | e :: _ => e.due = s.cyc.block
  | [] => false

/-- The front entry leaves the queue, is executed and answered (R103). -/
def dueEntry (s : State) : State :=
  match s.aqu.queue with
  | [] => s
  | e :: rest =>
    let r := execEntry e (s.withAqu { s.aqu with queue := rest })
    reply e.station e.action.code e.tag true r.2 .none r.1

/-- Every entry due in the current block is executed, in queue order (R103); where one aborts the bounce, the waiting list
advances before the next (R141, R135). -/
def dueEntries : Nat → State → State
  | 0, s => s
  | n + 1, s => if s.entryDue then dueEntries n (advanceQueue (dueEntry s)) else s

/-! ## Taking (R99 to R102) -/

/-- The checks of an action's owner when its request is taken (R99, step 4). -/
def State.takingCheck (s : State) : Action → Option ReplyCode
  | .transportStop => if s.cyc.state = .counting || s.cyc.state = .running then none else some .wrongState
  | .passOpen i t => s.openCheck i t
  | .passClose i => if (s.pass i).isSome then none else some .noPass
  | _ => none

/-- A new entry stands behind every entry whose due block is not later (R101). -/
def insertEntry (now : Nat) (e : Entry) : List Entry → List Entry
  | [] => [e]
  | x :: xs => if diff32 e.due now < diff32 x.due now then e :: x :: xs else x :: insertEntry now e xs

/-- The layer of the pass a PASS_CLOSE is taken against, with its serial (R100). -/
def State.passLayerOf (s : State) : Action → Option (LayerId × Nat)
  | .passClose i => (s.pass i).map fun p => (p.layer, ((s.layer p.layer).map (·.serial)).getD 0)
  | _ => none

/-- A request becomes an entry (R100, R101), answered QUEUED (R109). -/
def enqueue (lk : Link) (tag : Byte) (a : Action) (mode : Quantize) (due : Nat) (s : State) : Answer :=
  let e : Entry :=
    { action := a, mode := mode, station := lk, tag := tag, due := due, arrival := s.aqu.arrivals,
      passLayer := s.passLayerOf a }
  (s.withAqu { s.aqu with queue := insertEntry s.cyc.block e s.aqu.queue, arrivals := wrap32 (s.aqu.arrivals + 1) },
    .queued, .queued due (diff32 due s.cyc.block) s.aqu.arrivals)

/-- The pending entry that a request withdraws (R102). -/
def State.pendingSame (s : State) (lk : Link) (a : Action) : Option Entry :=
  s.aqu.queue.find? fun e => e.station = lk && e.action.sameTarget a

/-- A quantized request is taken, its arguments accepted (R99). -/
def takeQuantized (lk : Link) (tag : Byte) (a : Action) (mode : Quantize) (s : State) : Answer :=
  if s.inHold then answer s .held
  else match s.pendingSame lk a with
    | some e =>
      answer (reply lk e.action.code e.tag true .cancelled .none
        (s.withAqu { s.aqu with queue := s.aqu.queue.erase e })) .withdrawn
    | none =>
      match s.takingCheck a with
      | some c => answer s c
      | none =>
        match s.timing lk a mode with
        | .atOnce d => answer (execAction a d s).1 (execAction a d s).2
        | .due n =>
          if 16 ≤ s.aqu.queue.length then
            answer (s.withAqu { s.aqu with fulls := sat32 (s.aqu.fulls + 1) }) .queueFull
          else enqueue lk tag a mode n s

end Sys2Proof.Machine
end

