-- ==== Sys2Proof/Machine/Hold.lean ====
section
/-! DEFINITION. The hold machine (R151 to R160), the wake, and the operations that settle what the hub does of itself at
a block's start and end (log 3). -/

namespace Sys2Proof.Machine

/-! ## Hold entry (R154) -/

/-- The timeline is set stopped by the hold, and the action queue told (R21). -/
def stopTimeline (s : State) : State :=
  match s.cyc.state with
  | .running => cancelQueue (leaveRunning s)
  | .counting =>
    if s.cyc.schedStart.isSome then
      cancelQueue (s.withCyc { s.cyc with state := .paused, pos := some 0, count := 0, schedStart := none, taps := [] })
    else cancelQueue (s.withCyc s.cyc.toUnset)
  | _ => s

/-- The bounce engine at hold entry (R142). -/
def pendSuspend (s : State) : State :=
  if s.bne.engine = .scanning || s.bne.engine = .committing then
    s.withBne { s.bne with active := s.bne.active.map fun b => { b with suspendPending := true } }
  else s

/-- Hold entry in the current block (R154). The strokes that this block's boundary has paid for complete first (R137), and
a bounce they end makes way for the next (R135). -/
def enterHold (cause : HoldCause) (station : Option Link) (s : State) : State :=
  let s1 := pendSuspend (stopTimeline (cutAll .hold false (advanceQueue (strokes 4 s))))
  let s2 := s1.withTmc
    { s1.tmc with mem := .draining, holdCause := some cause, holdStation := station, holdEntry := some s1.cyc.block,
                  holds := sat32 (s1.tmc.holds + 1) }
  emit (.holdDraining cause station s2.smn.supply s2.smn.thermal s2.cyc.state) s2

/-- A trigger handed by the supply watch is taken: hold entry while the memory is ACTIVE, nothing otherwise (R152). -/
def takeTrigger (s : State) : State :=
  match s.tmc.trigger with
  | none => s
  | some (cause, _) =>
    let s1 := s.withTmc { s.tmc with trigger := none }
    if s1.tmc.mem = .active then enterHold cause none s1 else s1

/-- A trigger of a reading in an earlier block has not been taken yet (R152). -/
def State.triggerOverdue (s : State) : Bool := s.tmc.trigger.any fun x => x.2 ≠ s.cyc.block

/-! ## Drain and wake (R155, R158) -/

/-- The drain is complete (R155): a cut pass counts as open until the end of the period in which its backfill ends. -/
def State.drainDue (s : State) : Bool :=
  s.tmc.mem = .draining && s.tmc.holdEntry ≠ some s.cyc.block && !(allInputs.any s.passInBlock) && !s.strokeInFlight

/-- The memory becomes RETAINING, if the drain is complete (R155). -/
def drain (s : State) : State :=
  if s.drainDue then
    let n := diff32 s.cyc.block (s.tmc.holdEntry.getD s.cyc.block)
    let s1 := s.withTmc { s.tmc with mem := .retaining, drained := sat32 (s.tmc.drained + n) }
    emit (.holdRetaining s1.tmc.holdCause n s1.bne.engine) s1
  else s

/-- The wake ends in the current block (R158). -/
def State.wakeDue (s : State) : Bool := s.tmc.mem = .waking && s.tmc.wakeEnd = some s.cyc.block

/-- A SUSPENDED engine puts its next stroke in flight (R143). -/
def unsuspend (s : State) : State :=
  if s.bne.engine = .suspended then
    match s.bne.active with
    | none => s
    | some b =>
      let cost := strokeCost b.mode b.count ((s.trackLen b.track).getD 0) b.done
      s.withBne { s.bne with engine := b.mode.engine, active := some { b with stroke := some (b.done, cost) } }
  else s

/-- The memory becomes ACTIVE and the hold ends, if the wake ends now; HOLD_STATE precedes the marks (R158, log 39). -/
def wake (s : State) : State :=
  if s.wakeDue then
    let cause := s.tmc.wakeCause.getD .resume
    let s1 := s.withTmc
      { s.tmc with mem := .active, holdCause := none, holdStation := none, holdEntry := none, wakeCause := none,
                   wakeEnd := none }
    let restarts : Bool := s1.cyc.state = .paused
    let s2 := unsuspend (if restarts then restart s1 else s1)
    let s3 := emit (.holdActive cause s2.cyc.state) s2
    if restarts then emitMarks s3 else s3
  else s

/-! ## The scheduled start (R9) -/

/-- The scheduled start is the current block. -/
def State.startDue (s : State) : Bool := s.cyc.state = .counting && s.cyc.schedStart = some s.cyc.block

/-- The timeline starts, if its scheduled start is the current block (R9). -/
def scheduledStart (s : State) : State :=
  if s.startDue then emitMarks (s.withCyc s.cyc.scheduled) else s

/-! ## Settling (log 3) -/

/-- What the passes do at the end of the block period just ended (R84). -/
def settleEnd (s : State) : State :=
  allInputs.foldl (fun s i => blendSpill i (reachEnd i s)) s

/-- What the passes do at a cycle boundary (R85). -/
def settlePasses (s : State) : State := allInputs.foldl (fun s i => carriedClose i (eighthBoundary i s)) s

/-- What the hub does of itself before a request is taken: the end of the last period and the start of this block. -/
def settleStart (s : State) : State :=
  let s1 := settlePasses (scheduledStart (autoClose (wake (settleEnd s))))
  let s2 := advanceQueue (dueEntries s1.aqu.queue.length s1)
  drain (if s2.tmc.mem = .draining then strokes 4 s2 else s2)

/-- What the hub does of itself before the period ends: all of the above, the strokes paid for, the waiting list, and a
hold whose trigger is overdue. A credit kept through a hold is tested in the first ACTIVE block already (log 49). -/
def settleAll (s : State) : State :=
  let s1 := drain (advanceQueue (strokes 4 (settleStart s)))
  if s1.triggerOverdue then takeTrigger s1 else s1

end Sys2Proof.Machine
end

