-- ==== Sys2Proof/Machine/Mix.lean ====
section
/-! DEFINITION. The mix of a block (chapter 6) and the transfer account (R148, R150). -/

namespace Sys2Proof.Machine

/-! ## Candidates and their rank (R112, R113) -/

/-- A mix ramp (R122). -/
inductive Ramp where
  | whole
  | fadeIn
  | fadeOut
deriving DecidableEq, Repr

/-- A voice to be read: what it is summed with, where, and by which page map. -/
structure Voice where
  entry : Played
  pos : Nat
  map : List (Nat × Page)
  /-- the position read is the first of a partial layer's span -/
  headOfPartial : Bool
deriving DecidableEq, Repr

/-- Effective gain (R112, R113). -/
def Played.gain (e : Played) : Nat := e.layerLevel * e.trackLevel

/-- Voice `a` ranks before voice `b` (R113). -/
def ranksBefore (a b : Voice) : Bool :=
  if a.entry.gain ≠ b.entry.gain then b.entry.gain < a.entry.gain
  else if a.entry.serial ≠ b.entry.serial then b.entry.serial < a.entry.serial
  else a.entry.layer < b.entry.layer

/-- A voice inserted by rank. -/
def insertVoice (v : Voice) : List Voice → List Voice
  | [] => [v]
  | w :: ws => if ranksBefore v w then v :: w :: ws else w :: insertVoice v ws

/-- The candidate voice of a layer record, if it is one (R112). -/
def State.candidate (s : State) (id : LayerId) : Option Voice :=
  match s.layer id with
  | none => none
  | some l =>
    let tr := s.track l.track
    match s.trackPos l.track with
    | none => none
    | some pos =>
      if l.state = .live && s.cyc.runOut.isNone && !tr.mute && tr.route ≠ .none && 0 < l.level * tr.level &&
          inSpan l.start l.written l.span pos then
        some { entry := ⟨id, l.serial, l.track, l.level, tr.level, tr.route, 0⟩, pos := pos, map := l.map,
               headOfPartial := pos = l.start && l.written < l.span }
      else none

/-- The candidates in rank order. -/
def State.candidates (s : State) : List Voice :=
  (allLayers.filterMap s.candidate).foldr insertVoice []

/-- The ranks of a list of voices, from 0. -/
def numberVoices (vs : List Voice) : List Voice :=
  vs.zipIdx.map fun x => { x.1 with entry := { x.1.entry with rank := x.2 } }

/-! ## The cap (R114, R115) -/

/-- The open passes of the current block (R75); an input counts once, though one pass of it ended and another started there
(log 13). -/
def State.writes (s : State) : Nat := (allInputs.filter s.passInBlock).length

/-- The cap before the transfers (R114, R115). -/
def State.supplyCapNow (s : State) : Nat :=
  if s.tmc.mem = .active then supplyCap s.mxe.supply
  else if s.tmc.mem = .draining && s.tmc.holdEntry = some s.cyc.block then supplyCap s.mxe.supply
  else 0

/-- The voice cap of the current block (R114). -/
def State.voiceCap (s : State) : Nat := min s.supplyCapNow (40 - s.writes - refreshOf s.mxe.thermal)

/-! ## Admission (R116 to R118) -/

/-- The ramp of an admitted voice (R116). -/
def admitRamp (played : List Played) (v : Voice) : Ramp :=
  if played.any fun e => e.layer = v.entry.layer && e.serial = v.entry.serial then .whole
  else if v.headOfPartial then .whole
  else .fadeIn

/-- The position at which a leaving voice would be read (R117); in a run-out block, the run-out position
(R130). -/
def State.leavePos (s : State) (t : TrackId) : Option Nat :=
  match s.cyc.runOut with
  | some v => v[t]
  | none => s.trackPos t

/-- The leaving voice of an entry, if its pages still exist (R117). -/
def State.leaving (s : State) (e : Played) : Option Voice :=
  match s.layer e.layer with
  | none => none
  | some l =>
    match s.leavePos e.track with
    | none => none
    | some pos =>
      if l.serial = e.serial && (l.state = .live || l.state = .parked) && inSpan l.start l.written l.span pos then
        some { entry := e, pos := pos, map := l.map, headOfPartial := false }
      else none

/-- Entries in the order of their recorded ranks. -/
def insertPlayed (e : Played) : List Played → List Played
  | [] => [e]
  | x :: xs => if e.rank ≤ x.rank then e :: x :: xs else x :: insertPlayed e xs

/-- The leaving voices, the first-ranked first. -/
def State.leavers (s : State) (admitted : List Voice) : List Voice :=
  ((s.mxe.played.filter fun e => !(admitted.any fun v => v.entry.layer = e.layer)).foldr insertPlayed []).filterMap
    s.leaving

/-! ## The sum (R121 to R125) -/

/-- A ramp applied to a voice term (R122). -/
def applyRamp (r : Ramp) (b : Block) : Block :=
  match r with
  | .whole => b
  | .fadeIn => perFrame (fun v i => v * ((i : Int) + 1) / 48) b
  | .fadeOut => perFrame (fun v i => v * (47 - (i : Int)) / 48) b

/-- The voice terms of a voice over the block (R121, R122). -/
def voiceTerms (s : State) (v : Voice) (r : Ramp) : Block :=
  applyRamp r ((storedBlock s v.map v.pos).map fun x => x * v.entry.layerLevel * v.entry.trackLevel / 65536)

/-- A route feeds a bus (R45). -/
def Route.feeds : Route → Bus → Bool
  | .a, .a => true
  | .b, .b => true
  | .both, _ => true
  | _, _ => false

/-- Blocks added frame by frame. -/
def sumBlocks (bs : List Block) : Block := bs.foldl (fun acc b => List.zipWith (· + ·) acc (fitBlock b)) silence

/-- The monitor level of an input on a bus in the current block (R73). -/
def State.monitorLevel (s : State) (i : Input) (bus : Bus) : Nat :=
  let r := s.input i
  match bus, s.passInBlock i with
  | .a, true => r.takeA
  | .b, true => r.takeB
  | .a, false => r.nomA
  | .b, false => r.nomB

/-- The monitor terms of an input on a bus (R123). -/
def monitorTerms (s : State) (bus : Bus) (x : Input × Block) : Block :=
  x.2.map fun v => v * s.monitorLevel x.1 bus / 256

/-- The bus sums before saturation (R124). -/
def busSums (s : State) (bus : Bus) (voices : List (Voice × Ramp)) (resolved : List (Input × Block)) : Block :=
  let level : Nat := if bus = .a then s.mxe.levelA else s.mxe.levelB
  let terms := (voices.filter fun x => x.1.entry.route.feeds bus).map fun x => voiceTerms s x.1 x.2
  (sumBlocks (terms ++ resolved.map (monitorTerms s bus))).map fun v => v * level / 256

/-- The clip count and the last clip event block of a bus after a clip block, with its event (R125). -/
def noteClip (bus : Bus) (sums : Block) (s : State) : State :=
  let frames := clippedFrames sums
  if frames = 0 then s
  else
    let count := min 65535 ((if bus = .a then s.mxe.clipA else s.mxe.clipB) + 1)
    let last := if bus = .a then s.mxe.lastClipA else s.mxe.lastClipB
    let send := last.all fun n => 100 ≤ diff32 s.cyc.block n
    let last' := if send then some s.cyc.block else last
    let s1 := s.withMxe
      (match bus with
       | .a => { s.mxe with clipA := count, lastClipA := last' }
       | .b => { s.mxe with clipB := count, lastClipB := last' })
    if send then emit (.busClip bus count frames (blockPeak 0 sums)) s1 else s1

/-- The shed flag after a block (R120). -/
def noteShed (candidates cap admitted : Nat) (s : State) : State :=
  let short : Bool := admitted < candidates
  let s1 := s.withMxe
    { s.mxe with shed := short, shedBlocks := if short then sat32 (s.mxe.shedBlocks + 1) else s.mxe.shedBlocks }
  if short = s.mxe.shed then s1 else emit (.voiceShed short candidates cap admitted) s1

/-! ## Return blocks (R127, R181) -/

/-- A return block placed in the return slot of a link that asks for its bus. -/
def placeReturn (a b : Block) (s : State) (lk : Link) : State :=
  let place (bus : Bus) (x : Block) : State :=
    let r := s.link lk
    let c := r.station
    s.withLink lk { r with ret := some ⟨bus, s.cyc.block % 256, x⟩,
                           station := if r.ret.isSome then { c with skips := sat32 (c.skips + 1) } else c }
  if s.linkRuns lk then
    match (s.station lk).ret with
    | .none => s
    | .a => place .a a
    | .b => place .b b
  else s

/-! ## The mix of a block (R111, R119) -/

/-- The mix of the current block, from its resolved inputs; the voices read are in the last mix record. -/
def mixBlock (resolved : List (Input × Block)) (s : State) : State :=
  let cands := s.candidates
  let cap := s.voiceCap
  let admitted := numberVoices (cands.take cap)
  let leavers := s.leavers admitted
  let read := leavers.take (cap - admitted.length)
  let voices := admitted.map (fun v => (v, admitRamp s.mxe.played v)) ++ read.map fun v => (v, Ramp.fadeOut)
  let sumsA := busSums s .a voices resolved
  let sumsB := busSums s .b voices resolved
  let s1 := s.withMxe
    { s.mxe with
      played := admitted.map (·.entry),
      hardStops := sat32 (s.mxe.hardStops + (leavers.length - read.length)),
      lastMix := ⟨cands.length, cap, admitted.length, read.length, admitted.length + read.length⟩ }
  let s2 := noteClip .b sumsB (noteClip .a sumsA (noteShed cands.length cap admitted.length s1))
  allLinks.foldl (placeReturn (sumsA.map saturate) (sumsB.map saturate)) s2

/-! ## The account (R148, R150) -/

/-- The transfer account of the current block is closed; its voice charge is the voices the mix has read (R129). -/
def closeAccount (s : State) : State :=
  if s.tmc.mem = .retaining then s
  else
    let writes := s.writes
    let voices := s.mxe.lastMix.read
    let spare := 40 - writes - s.tmc.refresh - voices
    let flying := s.strokeInFlight
    s.withTmc
      { s.tmc with account := ⟨writes, s.tmc.refresh, voices, spare⟩,
                   credit := if flying then s.tmc.credit + spare else s.tmc.credit,
                   stalls := if flying && spare = 0 then sat32 (s.tmc.stalls + 1) else s.tmc.stalls }

end Sys2Proof.Machine
end

