-- ==== Sys2Proof/Machine/Links.lean ====
section
/-! DEFINITION. The station links (chapter 10): reception (R175, R176), forwarding (R177 to R179), departures and joins
(R171 to R174) and transmission (R180). -/

namespace Sys2Proof.Machine

/-! ## Link records -/

/-- A link record changed. -/
def mapLink (lk : Link) (f : LinkRec → LinkRec) (s : State) : State := s.withLink lk (f (s.link lk))

/-- The station counters of a link changed. -/
def mapCounters (lk : Link) (f : StationCounters → StationCounters) (s : State) : State :=
  mapLink lk (fun r => { r with station := f r.station }) s

/-- A forward slot of a link. -/
def State.slot (s : State) (lk : Link) (k : Fin 2) : Option FwdSlot := (s.link lk).fwd[k]

/-- A forward slot of a link set. -/
def setSlot (lk : Link) (k : Fin 2) (x : Option FwdSlot) (s : State) : State :=
  mapLink lk (fun r => { r with fwd := r.fwd.set k x }) s

/-- A forward slot of a link changed, if it holds a packet. -/
def mapSlot (lk : Link) (k : Fin 2) (f : FwdSlot → FwdSlot) (s : State) : State :=
  match s.slot lk k with
  | none => s
  | some x => setSlot lk k (some (f x)) s

/-- The first empty forward slot of a link. -/
def State.emptySlot (s : State) (lk : Link) : Option (Fin 2) :=
  if (s.slot lk 0).isNone then some 0 else if (s.slot lk 1).isNone then some 1 else none

/-- The source address of a station (R177). -/
def sourceByte (lk : Link) : Byte := BitVec.ofNat 8 (lk.val + 1)

/-- The receive assembly of a link set. -/
def setAssembly (lk : Link) (a : Assembly) (s : State) : State := mapLink lk (fun r => { r with assembly := a }) s

/-! ## Broadcast groups (R179) -/

/-- A copy of broadcast `g` still stands in a forward slot. -/
def State.groupOpen (s : State) (g : Nat) : Bool :=
  allLinks.any fun lk =>
    ((s.slot lk 0).any fun x => x.group = some g) || ((s.slot lk 1).any fun x => x.group = some g)

/-- Broadcasts whose copies have all ended leave the list; one with a copy sent whole is counted at its source (R179). -/
def finishBroadcasts (s : State) : State :=
  let ended := s.slk.broadcasts.filter fun b => !s.groupOpen b.group
  let s1 := { s with slk.broadcasts := s.slk.broadcasts.filter fun b => s.groupOpen b.group }
  ended.foldl (fun s b =>
    if b.whole then mapCounters b.source (fun c => { c with forwardedFrom := sat32 (c.forwardedFrom + 1) }) s else s) s1

/-- A copy of a broadcast has been sent whole. -/
def markWhole (g : Option Nat) (s : State) : State :=
  match g with
  | none => s
  | some n =>
    { s with slk.broadcasts := s.slk.broadcasts.map fun b => if b.group = n then { b with whole := true } else b }

/-! ## Forwards closed before their END (R178) -/

/-- How many bytes after the address of a forward of `received` bytes had been passed on: a free value, 0 where no
transmission had begun (log 14). -/
def passedOn (begun : Bool) (received : Nat) (s : State) : Nat × State :=
  if begun then (min received (Config.freePassedOn s.freeIndex), s.nextFree) else (0, s)

/-- The transmission of a slot's packet has begun. -/
def State.slotBegun (s : State) (lk : Link) (k : Fin 2) : Bool := (s.slot lk k).any (·.begun)

/-- A forward slot is emptied; if its transmission had begun, FAULT_END is sent in place of the next byte (R178). -/
def closeCopy (s : State) (x : Link × Fin 2) : State :=
  let begun := s.slotBegun x.1 x.2
  let s1 := setSlot x.1 x.2 none s
  if begun then mapLink x.1 (fun r => { r with tx := none, lineEnd := .faultEnded }) s1 else s1

/-- ROUTE_FAIL to the source of a forward, with route failures +1 (R177 to R179); nothing where it is not in RUN. -/
def routeFail (lk : Link) (reason : RouteReason) (dest : Byte) (links : List Link) (n : Nat) (s : State) : State :=
  if s.linkRuns lk then
    deliver lk (.routeFail reason dest links n) s.info
      (mapCounters lk (fun c => { c with routeFails := sat32 (c.routeFails + 1) }) s)
  else s

/-- Every copy of a forward is closed. -/
def closeCopies (f : Forwarding) (s : State) : State := finishBroadcasts (f.copies.foldl closeCopy s)

/-- The 257th byte after the address has been received (R178, R179); of the 256 before it some may have been passed on.
The links of a broadcast are listed in ascending number (log 58). -/
def tooLong (lk : Link) (f : Forwarding) (s : State) : State :=
  let begun := f.copies.any fun x => s.slotBegun x.1 x.2
  let r := passedOn begun f.received s
  routeFail lk .tooLong f.dest (f.copies.map (·.1)) r.1 (setAssembly lk .passOver (closeCopies f r.2))

/-! ## The route (R177, R179) -/

/-- A forward slot claimed for a packet from `lk`, which gives its address as the first byte. -/
def claimCopy (lk : Link) (dest : Byte) (group : Option Nat) (d : Link) (k : Fin 2) (s : State) : State :=
  setSlot d k (some
    { source := lk, dest := dest, bytes := [sourceByte lk], complete := false, begun := false, group := group }) s

/-- The route of a forward is tested at its destination byte (R177). -/
def routeForward (lk : Link) (dest : Byte) (s : State) : State :=
  match stationArg (dest - 1) with
  | none => routeFail lk .noSuch dest [] 0 (setAssembly lk .passOver s)
  | some d =>
    if d = lk then routeFail lk .self dest [lk] 0 (setAssembly lk .passOver s)
    else if !s.linkRuns d then routeFail lk .down dest [d] 0 (setAssembly lk .passOver s)
    else match s.emptySlot d with
      | none => routeFail lk .busy dest [d] 0 (setAssembly lk .passOver s)
      | some k =>
        setAssembly lk (.forward ⟨dest, [(d, k)], 0, none⟩) (claimCopy lk dest none d k s)

/-- The links a broadcast from `lk` is offered to (R179), ascending, as a ROUTE_FAIL lists them (log 58). -/
def State.offered (s : State) (lk : Link) : List Link := allLinks.filter fun d => d ≠ lk && s.linkRuns d

/-- A broadcast is offered to every other link in RUN (R179). The links without an empty slot are listed in ascending number
(log 58). -/
def routeBroadcast (lk : Link) (s : State) : State :=
  let copies := (s.offered lk).filterMap fun d => (s.emptySlot d).map fun k => (d, k)
  let busy := (s.offered lk).filter fun d => (s.emptySlot d).isNone
  let g := s.slk.nextGroup
  let s1 :=
    if copies.isEmpty then setAssembly lk .passOver s
    else
      let s2 := copies.foldl (fun s x => claimCopy lk 0xFF (some g) x.1 x.2 s) s
      setAssembly lk (.forward ⟨0xFF, copies, 0, some g⟩)
        { s2 with slk.broadcasts := s2.slk.broadcasts ++ [⟨g, lk, false⟩], slk.nextGroup := g + 1 }
  if busy.isEmpty then s1 else routeFail lk .busy 0xFF busy 0 s1

/-- The destination byte of a packet begins it (R175): a hub packet, a broadcast, or a forward. -/
def beginPacket (lk : Link) (dest : Byte) (s : State) : State :=
  if dest = 0x00 then setAssembly lk (.hub [] false) s
  else if dest = 0xFF then routeBroadcast lk s
  else routeForward lk dest s

/-- A data byte is received: outside a packet it begins one (R170); inside a hub packet it is collected while the packet
holds up to 264 bytes (R175); inside a forward it is passed on (R177), and the 257th closes the forward (R178). -/
def dataByte (lk : Link) (b : Byte) (s : State) : State :=
  match (s.link lk).assembly with
  | .outside => beginPacket lk b s
  | .hub bytes overlong =>
    setAssembly lk (if bytes.length < 263 then .hub (bytes ++ [b]) overlong else .hub bytes true) s
  | .passOver => s
  | .forward f =>
    if 256 ≤ f.received then tooLong lk f s
    else
      setAssembly lk (.forward { f with received := f.received + 1 })
        (f.copies.foldl (fun s x => mapSlot x.1 x.2 (fun y => { y with bytes := y.bytes ++ [b] }) s) s)

/-- The END of a forward (R177), or of a packet passed over. -/
def forwardEnd (lk : Link) (s : State) : State :=
  match (s.link lk).assembly with
  | .outside => s
  | .hub _ _ => s
  | .passOver => setAssembly lk .outside s
  | .forward f =>
    let s1 := setAssembly lk .outside
      (f.copies.foldl (fun s x => mapSlot x.1 x.2 (fun y => { y with complete := true }) s) s)
    if f.group.isNone then mapCounters lk (fun c => { c with forwardedFrom := sat32 (c.forwardedFrom + 1) }) s1 else s1

/-- The FAULT_END of a forward (R178), or of a packet passed over; one passed on counts as a fault-ended packet
(log 15). -/
def forwardFault (lk : Link) (s : State) : State :=
  match (s.link lk).assembly with
  | .outside => s
  | .hub _ _ => s
  | .passOver => setAssembly lk .outside s
  | .forward f =>
    let begun := f.copies.any fun x => s.slotBegun x.1 x.2
    let s1 := setAssembly lk .outside (closeCopies f s)
    if begun then mapCounters lk (fun c => { c with faultEnded := sat32 (c.faultEnded + 1) }) s1 else s1

/-! ## Departure (R171, R174) -/

/-- The event's cause of a link error. -/
def RecoveryCause.count (c : RecoveryCause) (k : LinkCounters) : LinkCounters :=
  match c with
  | .parity => { k with parity := sat32 (k.parity + 1) }
  | .silence => { k with silence := sat32 (k.silence + 1) }
  | .breakChar => { k with breaks := sat32 (k.breaks + 1) }
  | .badCode => { k with badCode := sat32 (k.badCode + 1) }
  | .strayEnd => { k with strayEnd := sat32 (k.strayEnd + 1) }

/-- The character times in a wrap of N. -/
def charWrap : Nat := 4294967296 * 2000

/-- The time of a character of the current block period, in character times (log 17). -/
def State.charTime (s : State) (char : Nat) : Nat := (s.cyc.block * 2000 + char) % charWrap

/-- A link error takes the link to RECOVER for 20 us, 40 character times, and counts its cause (R171, R172). The bring-up
count is cleared here, before LISTEN (log 18). -/
def enterRecover (lk : Link) (cause : Option RecoveryCause) (char : Nat) (s : State) : State :=
  mapLink lk (fun r =>
    { r with state := .recover, bringUp := 0, recoverEnd := some ((s.charTime char + 40) % charWrap),
             counters := match cause with
               | some c => c.count r.counters
               | none => r.counters }) s

/-- A copy lost with its destination link is taken out of its source's forward in progress. -/
def dropCopy (x : Link × Fin 2) : Assembly → Assembly
  | .forward f =>
    let rest := f.copies.filter fun y => y ≠ x
    if f.copies.contains x && rest.isEmpty then .passOver else .forward { f with copies := rest }
  | a => a

/-- A forwarded packet in a slot of a departed link is lost, with ROUTE_FAIL (DOWN) to its source (R174, R178). -/
def loseSlot (lk : Link) (k : Fin 2) (s : State) : State :=
  match s.slot lk k with
  | none => s
  | some x =>
    let r := passedOn x.begun (x.bytes.length - 1) s
    let s1 := mapLink x.source (fun y => { y with assembly := dropCopy (lk, k) y.assembly }) (setSlot lk k none r.2)
    routeFail x.source .down x.dest [lk] r.1 s1

/-- The forward in progress of a departed link is closed (R178). -/
def dropForward (lk : Link) (s : State) : State :=
  match (s.link lk).assembly with
  | .forward f => closeCopies f (setAssembly lk .outside s)
  | _ => setAssembly lk .outside s

/-- The link record of a departed link: nothing is received or sent (R174). -/
def emptyLink (lk : Link) (s : State) : State :=
  mapLink lk (fun r =>
    { r with requests := [], replies := [], events := [], ret := none, tx := none,
             lineEnd := if r.tx.isSome then .abandoned else r.lineEnd }) s

/-- The input of a departed link: its slot queue emptied, MISSING (R71). -/
def emptyInput (i : Input) (s : State) : State := s.withInput i { s.input i with slots := [], present := false }

/-- A link leaves RUN (R174). The packets in its slots are lost in the slots' order, which orders two ROUTE_FAIL to one
source (log 55). -/
def depart (lk : Link) (cause : RecoveryCause) (char : Nat) (s : State) : State :=
  let s1 := emptyLink lk (dropForward lk (enterRecover lk (some cause) char s))
  let s2 := finishBroadcasts (loseSlot lk 1 (loseSlot lk 0 s1))
  let s3 := cutPass .link true lk (emptyInput lk s2)
  emit (.linkState lk .recover (some cause)) (bounceDeparture lk (removeEntries lk s3))

/-- The cause that a data character in JOIN counts under, if any: a free value (log 16). -/
def joinCause (n : Nat) : Option RecoveryCause :=
  match n with
  | 0 => some .parity
  | 1 => some .silence
  | 2 => some .breakChar
  | 3 => some .badCode
  | 4 => some .strayEnd
  | _ => none

/-- A data character received in JOIN (R172). -/
def joinDataError (lk : Link) (char : Nat) (s : State) : State :=
  enterRecover lk (joinCause (Config.freeJoinCause s.freeIndex)) char s.nextFree

/-- A link error with a cause that has a count of its own (R171, R172). What is due at the start of the block comes before
the departure (R103, log 3). -/
def causedError (lk : Link) (cause : RecoveryCause) (char : Nat) (s : State) : State :=
  match (s.link lk).state with
  | .run => depart lk cause char (settleStart s)
  | .join => enterRecover lk (some cause) char s
  | .listen => mapLink lk (fun r => { r with bringUp := 0 }) s
  | .recover => s

/-- Something other than FILL reaches a link's receiver (R172): in RUN `k` acts on it; in JOIN its first character is a
link error; in LISTEN it restarts the count; in RECOVER it is not read. -/
def receive (lk : Link) (k : State → State) (s : State) : State :=
  match (s.link lk).state with
  | .run => k s
  | .join => joinDataError lk 0 s
  | .listen => mapLink lk (fun r => { r with bringUp := 0 }) s
  | .recover => s

/-- An END or a FAULT_END reaches a link's receiver: inside a packet `k` acts on it; outside one, and in JOIN, it is the
link error STRAY_END (R171), its character time taken as 0 (log 17); in LISTEN it restarts the count. -/
def receiveEnd (lk : Link) (k : State → State) (s : State) : State :=
  if s.linkRuns lk && (s.link lk).assembly ≠ .outside then k s else causedError lk .strayEnd 0 s

/-! ## Hub packets (R175, R176) -/

/-- A complete REQUEST packet is offered to the request queue (R176). -/
def offerRequest (lk : Link) (body : List Byte) (overlong : Bool) (s : State) : State :=
  let r := s.link lk
  if r.requests.length < 4 then
    s.withLink lk { r with requests := r.requests ++ [⟨body, overlong⟩],
                           station := { r.station with queued := sat32 (r.station.queued + 1) } }
  else
    receptionReply lk (body.getD 0 0) body[1]? .busy
      (mapCounters lk (fun c => { c with busy := sat32 (c.busy + 1) }) s)

/-- A hub packet at its END: its bytes after the address byte, the first 263 of one grown beyond 264 bytes (R175). -/
def hubPacket (lk : Link) (bytes : List Byte) (overlong : Bool) (s : State) : State :=
  match bytes with
  | 0x01 :: body => offerRequest lk body overlong s
  | 0x02 :: stamp :: data =>
    if data.length = 144 then arrive lk stamp.toNat (bytesBlock data) s
    else mapCounters lk (fun c => { c with malformed := sat32 (c.malformed + 1) }) s
  | [0x02] => mapCounters lk (fun c => { c with malformed := sat32 (c.malformed + 1) }) s
  | kept =>
    receptionReply lk (kept.getD 1 0) kept[2]? .malformed
      (mapCounters lk (fun c => { c with unknown := sat32 (c.unknown + 1) }) s)

/-- A hub packet of `bytes` after its address byte may be the one in progress: none is, or what has been received of it is
their beginning (log 5). -/
def Assembly.accepts (a : Assembly) (bytes : List Byte) : Bool :=
  match a with
  | .outside => true
  | .hub got overlong => got.isPrefixOf bytes && (!overlong || 263 < bytes.length)
  | _ => false

/-- A hub packet may end here: one is in progress, or none of any kind is. -/
def Assembly.ofHub : Assembly → Bool
  | .outside => true
  | .hub _ _ => true
  | _ => false

/-- A hub packet whole, at its END: its bytes after the address byte. -/
def receiveHub (lk : Link) (bytes : List Byte) (s : State) : State :=
  receive lk (fun s =>
    if (s.link lk).assembly.accepts bytes then
      hubPacket lk (bytes.take 263) (263 < bytes.length) (setAssembly lk .outside s)
    else s) s

/-- A hub packet ended by FAULT_END is discarded and counted (R175). -/
def discardFaulted (lk : Link) (s : State) : State :=
  mapCounters lk (fun c => { c with faultEnded := sat32 (c.faultEnded + 1) }) (setAssembly lk .outside s)

/-- The END of the packet in progress (R175, R177). -/
def packetEnd (lk : Link) (s : State) : State :=
  match (s.link lk).assembly with
  | .hub bytes overlong => hubPacket lk bytes overlong (setAssembly lk .outside s)
  | _ => forwardEnd lk s

/-- The FAULT_END of the packet in progress (R175, R178). -/
def packetFault (lk : Link) (s : State) : State :=
  match (s.link lk).assembly with
  | .hub _ _ => discardFaulted lk s
  | _ => forwardFault lk s

/-! ## Joins (R172, R173) -/

/-- The input counts of a station return to 0 (R71). -/
def clearInputCounts (i : Input) (s : State) : State :=
  s.withInput i { s.input i with stored := 0, replaced := 0, early := 0, late := 0, dropouts := 0 }

/-- A link makes a fresh join (R173). -/
def join (lk : Link) (s : State) : State :=
  let s1 := mapLink lk (fun r =>
    { r with state := .run, bringUp := 16, assembly := .outside, station := StationCounters.zero,
             counters := { r.counters with joins := sat32 (r.counters.joins + 1) } }) s
  emit (.linkState lk .run none) (clearInputCounts lk (s1.withStation lk Settings.reset))

/-! ## Transmission (R180) -/

/-- A forward slot offers a packet. -/
def State.slotOffers (s : State) (lk : Link) (k : Fin 2) : Bool := (s.slot lk k).any fun x => !x.begun

/-- The forward slot the transmitter takes: of two, the one not served last (R180). -/
def State.nextSlot (s : State) (lk : Link) : Option (Fin 2) :=
  let other : Fin 2 := if (s.link lk).lastFwd = 0 then 1 else 0
  if s.slotOffers lk other then some other
  else if s.slotOffers lk (s.link lk).lastFwd then some (s.link lk).lastFwd
  else none

/-- A transmitter in JOIN sends a FILL and counts it, the 16th being FRESH_JOIN's (R172). -/
def countFill (lk : Link) (s : State) : State := mapLink lk (fun r => { r with bringUp := min 15 (r.bringUp + 1) }) s

/-- An idle transmitter in RUN chooses the next packet (R180). -/
def startPacket (lk : Link) (s : State) : State :=
  let r := s.link lk
  if r.state = .run && r.tx.isNone then
    match r.ret, r.replies, r.events with
    | some x, _, _ => s.withLink lk { r with ret := none, tx := some (.hub x.bytes) }
    | none, x :: rest, _ => s.withLink lk { r with replies := rest, tx := some (.hub x.bytes) }
    | none, [], x :: rest => s.withLink lk { r with events := rest, tx := some (.hub x.bytes) }
    | none, [], [] =>
      match s.nextSlot lk with
      | none => s
      | some k =>
        mapSlot lk k (fun y => { y with begun := true }) (s.withLink lk { r with lastFwd := k, tx := some (.forward k) })
  else s

/-- The END of the packet in progress has been sent (R177, R180). -/
def endPacket (lk : Link) (s : State) : State :=
  let r := s.link lk
  match r.state, r.tx with
  | .run, some (.hub _) => s.withLink lk { r with tx := none, lineEnd := .ended }
  | .run, some (.forward k) =>
    match s.slot lk k with
    | some x =>
      if x.complete then
        let s1 := mapCounters lk (fun c => { c with forwardedTo := sat32 (c.forwardedTo + 1) })
          (setSlot lk k none (s.withLink lk { r with tx := none, lineEnd := .ended }))
        finishBroadcasts (markWhole x.group s1)
      else s
    | none => s
  | _, _ => s

end Sys2Proof.Machine
end

