-- ==== Sys2Proof/Machine/Readback.lean ====
section
/-! DEFINITION. The read-back records (R187) as bytes, field by field in the order of the tables that define them (R194).
Where R194 leaves a layout open the choice is in log 23. -/

namespace Sys2Proof.Machine

/-- PRESENT or MISSING (R68). -/
def encPresence (b : Bool) : List Byte := enc8 (if b then 0 else 1)

/-- yes or no, in the order R25 lists them. -/
def encYesNo (b : Bool) : List Byte := enc8 (if b then 0 else 1)

/-- The timeline record (section 1.2). -/
def cycleRecord (c : Cyc) : List Byte :=
  enc8 c.state.code ++ encOpt enc16 c.len ++ encOpt enc8 c.beats ++ encOpt enc16 (c.len.map fun _ => c.beatLen) ++
    enc8 c.setting ++ encOpt enc16 c.pos ++ enc16 c.count ++ enc32 c.block ++ encList enc16 c.taps ++
    encOpt enc32 c.lastTap ++ encOpt enc32 c.schedStart ++ encOpt enc32 c.measureStart

/-- A list of layers with their states. -/
def encLayers (s : State) (ids : List LayerId) : List Byte :=
  encList (fun id => enc8 id.val ++ enc8 (layerCode (s.layer id))) ids

/-- The track record (R23), with the state of each listed layer. -/
def trackRecord (s : State) (t : TrackId) : List Byte :=
  let tr := s.track t
  enc8 tr.state.code ++ encOpt enc8 tr.mult ++ encOpt enc16 tr.anchor ++ encOpt enc32 (s.trackLen t) ++
    enc16 tr.level ++ encFlag tr.mute ++ enc8 tr.route.code ++ encLayers s tr.stack ++ encLayers s tr.redo

/-- The page map: 938 slots, each a page or absent (R25). -/
def encMap (m : List (Nat × Page)) : List Byte :=
  (List.range 938).flatMap fun slot => encOpt (fun p => enc16 p.val) (slotPage m slot)

/-- The layer record (R25); the state alone when FREE. -/
def layerRecord (x : Option Layer) : List Byte :=
  match x with
  | none => enc8 (layerCode none)
  | some l =>
    enc8 (layerCode (some l)) ++ enc8 l.track.val ++ encOpt (fun i => enc8 i.val) l.input ++ encOpt enc32 l.length ++
      enc32 l.start ++ enc32 l.written ++ encMap l.map ++ enc16 l.map.length ++ enc16 l.level ++ encYesNo l.pinned ++
      enc32 l.serial ++ encOpt enc32 l.stamp

/-- The pool record (R66). -/
def poolRecord (s : State) : List Byte :=
  let parked := (allLayers.filter fun id => (s.layer id).any fun l => l.state = .parked).length
  let unused := (allLayers.filter fun id => (s.layer id).isNone).length
  enc16 s.freeCount ++ encOpt (fun p => enc16 p.val) s.pgp.free.head? ++ enc16 s.pgp.reserved.length ++
    enc16 s.pgp.pinnedTotal ++ enc16 s.reclaimable ++ enc8 parked ++ enc8 unused ++ encFlag s.pgp.low ++
    enc16 s.pgp.lowest ++ enc32 s.pgp.reclaims ++ enc32 s.pgp.reclaimedPages ++ enc32 s.pgp.starved ++
    enc32 s.pgp.groupRefusals

/-! ## READ_STATION -/

/-- The kind of a receive assembly, without its contents. -/
def Assembly.code : Assembly → Nat
  | .outside => 0
  | .forward _ => 1
  | .passOver => 2
  | .hub _ _ => 3

/-- The link record, except the packet contents, with the counts of its queues and slots (R172). -/
def linkRecord (r : LinkRec) : List Byte :=
  let k := r.counters
  let c := r.station
  enc8 r.state.code ++ enc8 r.bringUp ++ encOpt enc32 r.recoverEnd ++ enc8 r.assembly.code ++ enc8 r.requests.length ++
    enc8 r.replies.length ++ enc8 r.events.length ++ enc8 (if r.ret.isSome then 1 else 0) ++
    enc8 ((if r.fwd[0].isSome then 1 else 0) + (if r.fwd[1].isSome then 1 else 0)) ++
    enc8 (if r.tx.isSome then 1 else 0) ++ enc8 r.lastFwd.val ++
    enc32 k.joins ++ enc32 k.parity ++ enc32 k.silence ++ enc32 k.breaks ++ enc32 k.badCode ++ enc32 k.strayEnd ++
    enc32 c.queued ++ enc32 c.busy ++ enc32 c.unknown ++ enc32 c.malformed ++ enc32 c.faultEnded ++
    enc32 c.unanswered ++ enc32 c.forwardedFrom ++ enc32 c.routeFails ++ enc32 c.forwardedTo ++ enc32 c.skips

/-- The settings of a station (R186). -/
def settingsRecord (x : Settings) : List Byte :=
  enc8 x.grace ++ encList (fun k => enc8 k.code) x.subs ++ enc8 x.ret.code ++ encFlag x.quiet ++
    encList (fun k => enc8 k.code) x.pendingKinds ++ encFlag x.missed ++ enc32 x.dropped

/-- The pass record, or ENDED alone (R75). -/
def passRecord (i : Input) (x : Option Pass) : List Byte :=
  match x with
  | none => enc8 2
  | some p =>
    enc8 p.state.code ++ enc8 i.val ++ enc8 p.track.val ++ enc8 p.kind.code ++ enc8 p.layer.val ++ enc32 p.start ++
      enc8 p.snap ++ encOpt enc32 p.close ++ enc32 p.writePos ++ enc8 p.backfill ++
      encOpt (fun c => enc8 c.code) p.cut ++ enc32 p.order

/-- The input of a station: presence, the five counts, the monitor levels, the pass record (R68, R75). -/
def inputRecord (i : Input) (r : InputRec) : List Byte :=
  encPresence r.present ++ enc32 r.stored ++ enc32 r.replaced ++ enc32 r.early ++ enc32 r.late ++ enc32 r.dropouts ++
    enc16 r.nomA ++ enc16 r.nomB ++ enc16 r.takeA ++ enc16 r.takeB ++ passRecord i r.pass

/-- The kind of an entry, in the order R100 lists them, and its target, 0 for the timeline (log 23). -/
def encAction : Action → List Byte
  | .transportStop => enc8 0 ++ enc8 0
  | .passOpen i _ => enc8 1 ++ enc8 i.val
  | .passClose i => enc8 2 ++ enc8 i.val
  | .layerUndo t => enc8 3 ++ enc8 t.val
  | .layerRedo t => enc8 4 ++ enc8 t.val
  | .trackClear t => enc8 5 ++ enc8 t.val
  | .trackMute t _ => enc8 6 ++ enc8 t.val

/-- An entry of the action queue (R109). -/
def encEntry (e : Entry) : List Byte := encAction e.action ++ [e.tag] ++ enc32 e.due ++ enc32 e.arrival

/-- The fields of a bounce of a station: active (0) or waiting (1), then track, count, mode and tag. -/
def encStationBounce (waits : Nat) (t : TrackId) (count : Nat) (mode : BounceMode) (tag : Byte) : List Byte :=
  enc8 1 ++ enc8 waits ++ enc8 t.val ++ enc8 count ++ enc8 mode.code ++ [tag]

/-- The active or waiting bounce of a station, if it has one. -/
def stationBounce (s : State) (lk : Link) : List Byte :=
  match s.bne.active with
  | some b =>
    if b.station = lk then encStationBounce 0 b.track b.count b.mode b.tag
    else match s.bne.waiting.find? fun w => w.station = lk with
      | some w => encStationBounce 1 w.track w.count w.mode w.tag
      | none => enc8 0
  | none =>
    match s.bne.waiting.find? fun w => w.station = lk with
    | some w => encStationBounce 1 w.track w.count w.mode w.tag
    | none => enc8 0

/-- The record of READ_STATION (R187). -/
def stationRecord (s : State) (lk : Link) : List Byte :=
  linkRecord (s.link lk) ++ settingsRecord (s.station lk) ++ inputRecord lk (s.input lk) ++
    encList encEntry (s.aqu.queue.filter fun e => e.station = lk) ++ stationBounce s lk

/-! ## READ_HUB -/

/-- The mix engine's items of R110. -/
def mixRecord (m : Mxe) : List Byte :=
  enc16 m.levelA ++ enc16 m.levelB ++ enc8 m.played.length ++ encFlag m.shed ++ enc16 m.clipA ++ enc16 m.clipB ++
    encOpt enc32 m.lastClipA ++ encOpt enc32 m.lastClipB ++ enc32 m.hardStops ++ enc32 m.shedBlocks ++
    enc8 m.lastMix.candidates ++ enc8 m.lastMix.cap ++ enc8 m.lastMix.admitted ++ enc8 m.lastMix.leaving ++
    enc8 m.lastMix.read

/-- The bounce engine's items: its state, the active bounce and the waiting list. -/
def bounceRecord (b : Bne) : List Byte :=
  enc8 b.engine.code ++
    encOpt (fun (x : Bounce) =>
      enc8 x.track.val ++ enc8 x.count ++ enc8 x.mode.code ++ enc8 x.station.val ++ enc16 x.done ++ enc16 x.total ++
        enc32 x.peak ++ enc32 x.clips) b.active ++
    encList (fun (w : Waiting) =>
      enc8 w.track.val ++ enc8 w.count ++ enc8 w.mode.code ++ enc8 w.station.val ++ [w.tag]) b.waiting

/-- The take memory controller's items of R147. -/
def memoryRecord (t : Tmc) : List Byte :=
  enc8 t.mem.code ++ encOpt (fun c => enc8 c.code) t.holdCause ++ encOpt (fun n => enc8 n.val) t.holdStation ++
    encOpt enc32 t.holdEntry ++ encOpt (fun c => enc8 c.code) t.wakeCause ++ encOpt enc32 t.wakeEnd ++
    enc8 t.refresh ++ enc16 t.credit ++ enc8 t.account.writes ++ enc8 t.account.refresh ++ enc8 t.account.voices ++
    enc8 t.account.spare ++ enc32 t.holds ++ enc32 t.drained ++ enc32 t.stalls

/-- The supply watch's items of R161. -/
def supplyRecord (m : Smn) : List Byte :=
  enc8 m.phase ++ encOpt enc16 m.battery ++ encOpt encTemp m.temperature ++ enc8 m.supply.code ++
    enc8 m.thermal.code ++ enc16 m.thrift ++ enc16 m.critical ++ encOpt enc16 m.lowest ++ encOpt encTemp m.highest ++
    enc32 m.changes

/-- The record of READ_HUB (R187). -/
def hubRecord (s : State) : List Byte :=
  enc32 s.cyc.block ++ enc8 s.rqu.pointer.val ++ enc8 s.aqu.queue.length ++ enc32 s.aqu.arrivals ++
    enc32 s.aqu.fulls ++ mixRecord s.mxe ++ bounceRecord s.bne ++ memoryRecord s.tmc ++ supplyRecord s.smn

end Sys2Proof.Machine
end

