-- ==== Sys2Proof/Machine/Serve.lean ====
section
/-! DEFINITION. The request unit (R183 to R185): which link is served next, the room for replies, and the serving of one
request, which every request's meaning calls with its owner's rule. -/

namespace Sys2Proof.Machine

/-! ## Eligibility (R183, R185) -/

/-- The replies owed to a station (R185). -/
def State.repliesOwed (s : State) (lk : Link) : Nat :=
  (s.aqu.queue.filter fun e => e.station = lk).length +
    (if s.bne.active.any (fun b => b.station = lk && b.owed) || s.bne.waiting.any (fun w => w.station = lk) then 1 else 0)

/-- The replies waiting in a station's reply queue, reception replies not counted (R185). -/
def State.repliesWaiting (s : State) (lk : Link) : Nat := ((s.link lk).replies.filter fun r => !r.reception).length

/-- The head of a link's request queue is eligible (R183). -/
def State.eligible (s : State) (lk : Link) : Bool :=
  s.linkRuns lk && !(s.link lk).requests.isEmpty && s.repliesWaiting lk + s.repliesOwed lk ≤ 19

/-- The link whose head the request unit takes next (R183). -/
def State.selected (s : State) : Option Link :=
  let p := s.rqu.pointer
  [p + 1, p + 2, p + 3, p].find? s.eligible

/-- The command that takes the head of a link's request queue. -/
def State.headRequest (s : State) (lk : Link) : Option Instr :=
  (s.link lk).requests.head?.map fun r => decodeRequest lk r.body r.overlong

/-- The request unit takes exactly this request next (log 4). -/
def State.takes (s : State) (lk : Link) (c : Instr) : Bool := s.selected = some lk && s.headRequest lk = some c

/-! ## Serving -/

/-- The head leaves its queue and the round-robin pointer names its link (R183). -/
def popRequest (lk : Link) (s : State) : State :=
  let s1 := mapLink lk (fun r => { r with requests := r.requests.tail }) s
  { s1 with rqu.pointer := lk }

/-- The request as its owner meets it: taken, and the station's quiet ended (R191) unless the request begins it. A read
request shows the hub as it stands here (R187, log 60). -/
def taken (lk : Link) (ends : Bool) (s : State) : State :=
  if ends then endQuiet lk (popRequest lk s) else popRequest lk s

/-- The state after the first reply of a served request (R185). -/
def firstReply (lk : Link) (code : Byte) (tag : Option Byte) (a : Answer) : State :=
  pushReply lk ⟨code, tag, false, a.2.1, a.1.cyc.block % 256, a.2.2, false⟩ a.1

/-- A request is served: what the hub does of itself in this block first (log 3), then the owner's rule, then the first
reply. Where it is not the request that the unit takes next, nothing happens (log 1, log 4). -/
def serve (lk : Link) (c : Instr) (code : Byte) (tag : Option Byte) (ends : Bool) (owner : State → Answer) (s : State) :
    State :=
  if s.stopped then s
  else
    let s1 := settleStart s
    if s1.takes lk c then firstReply lk code tag (owner (taken lk ends s1)) else s

/-- A request that is refused HELD in hold (R192). -/
def outsideHold (s : State) (owner : State → Answer) : Answer := if s.inHold then answer s .held else owner s

end Sys2Proof.Machine
end

