-- ==== Sys2Proof/Machine/BlockSteps.lean ====
section
/-! DEFINITION. The steps that the hub takes of itself at the end of a block period and at the start of a block. Each
leaves a hub whose moment for it has not come as it is (log 1). -/

namespace Sys2Proof.Machine

/-- A step of a hub that is not stopped by a brownout (R168). -/
def unlessStopped (s : State) (f : State → State) : Host.Outcome State Fault Refusal :=
  .next (if s.stopped then s else f s)

/-! ## At the end of a period -/

/-- PASS_REACHES_END (R84, R87). -/
def execPassReachesEnd (i : Input) (s : State) : Host.Outcome State Fault Refusal := unlessStopped s (reachEnd i)

/-- SPILL_BLEND (R84, R85, R87). -/
def execSpillBlend (i : Input) (s : State) : Host.Outcome State Fault Refusal := unlessStopped s (blendSpill i)

/-- CUT_BACKFILL_END, in the period in which the backfill remaining reaches 0 (R89). -/
def execCutBackfillEnd (i : Input) (s : State) : Host.Outcome State Fault Refusal :=
  unlessStopped s fun s => finishCutBackfill i (settleStart s)

/-! ## At the start of a block -/

/-- SCHEDULED_START (R9). -/
def execScheduledStart (s : State) : Host.Outcome State Fault Refusal :=
  unlessStopped s fun s => scheduledStart (settleEnd s)

/-- MEASURE_AUTO_CLOSE (R13). -/
def execMeasureAutoClose (s : State) : Host.Outcome State Fault Refusal :=
  unlessStopped s fun s => autoClose (settleEnd s)

/-- OPEN_PASS_EIGHTH_BOUNDARY (R85). -/
def execOpenPassEighthBoundary (i : Input) (s : State) : Host.Outcome State Fault Refusal :=
  unlessStopped s fun s => eighthBoundary i (settleEnd s)

/-- CARRIED_CLOSE (R85, R86). -/
def execCarriedClose (i : Input) (s : State) : Host.Outcome State Fault Refusal :=
  unlessStopped s fun s => carriedClose i (settleEnd s)

/-- DUE_ENTRY_EXECUTE: every entry due in the current block (R103). A scheduled start at the same boundary comes first;
either order gives the same result (R95). -/
def execDueEntryExecute (s : State) : Host.Outcome State Fault Refusal :=
  unlessStopped s fun s =>
    let s1 := scheduledStart (settleEnd s)
    dueEntries s1.aqu.queue.length s1

/-- BOUNCE_STROKE_COMPLETE (R137). -/
def execBounceStrokeComplete (s : State) : Host.Outcome State Fault Refusal :=
  unlessStopped s fun s =>
    let s1 := settleEnd s
    if s1.strokeDue then strokeStep s1 else s1

/-- BOUNCE_QUEUE_ADVANCE (R135). -/
def execBounceQueueAdvance (s : State) : Host.Outcome State Fault Refusal :=
  unlessStopped s fun s => advanceQueue (settleEnd s)

/-- DRAIN_COMPLETE; a stroke that completes at this boundary counts as complete (R155). -/
def execDrainComplete (s : State) : Host.Outcome State Fault Refusal :=
  unlessStopped s fun s =>
    let s1 := settleEnd s
    drain (if s1.tmc.mem = .draining then strokes 4 s1 else s1)

/-- WAKE_END (R158). -/
def execWakeEnd (s : State) : Host.Outcome State Fault Refusal := unlessStopped s fun s => wake (settleEnd s)

/-- HOLD_ENTRY: the trigger of the supply watch is taken (R152, R154). -/
def execHoldEntry (s : State) : Host.Outcome State Fault Refusal :=
  unlessStopped s fun s => takeTrigger (settleStart s)

end Sys2Proof.Machine
end

