-- ==== Sys2Proof/Machine/Boundary.lean ====
section
/-! DEFINITION. BLOCK_BOUNDARY, the end of block period N (R1): resolution (R70), the ring (R72), writes (R80, R81), the
mix (R111), the account (R148), and the advance into block N + 1 (R15, R16, R161). -/

namespace Sys2Proof.Machine

/-! ## Resolution (R70) -/

/-- The resolved block of an input in the current block: the one filed under its stamp, or silence. -/
def resolvedBlock (s : State) (i : Input) : Block :=
  (((s.input i).slots.find? fun c => c.1 = s.cyc.block % 256).map (·.2)).getD silence

/-- The resolution's effect on the input: the slot queue, the flag, the dropout count and the event. -/
def resolveInput (s : State) (i : Input) : State :=
  let r := s.input i
  let stamp := s.cyc.block % 256
  if r.slots.any fun c => c.1 = stamp then
    s.withInput i { r with slots := r.slots.filter fun c => c.1 ≠ stamp, present := true }
  else if s.linkRuns i then
    let n := sat32 (r.dropouts + 1)
    let s1 := s.withInput i { r with dropouts := n, present := false }
    if r.present then emit (.inputDropout i n) s1 else s1
  else s.withInput i { r with present := false }

/-- The spill of a pass in SPILL_WAIT has been resolved (log 9). -/
def noteSpill (s : State) (i : Input) : State :=
  mapPass i (fun p => if p.state = .spillWait then { p with spillReady := true } else p) s

/-! ## Writes (R80, R81) -/

/-- The order in which the passes reach the pool: as given, then the inputs not named, ascending (R56). -/
def fullOrder (order : List Input) : List Input :=
  (order ++ allInputs).foldl (fun acc i => if acc.contains i then acc else acc ++ [i]) []

/-- The backfill and the live write of one input; a cut pass ends with its backfill, before the mix (R89, R111). -/
def writeInput (resolved : Input → Block) (s : State) (i : Input) : State :=
  endCutBackfill i (liveWrite i (resolved i) (backfillCopy i s))

/-- The resolved block joins the ring and the oldest leaves it (R72). -/
def pushRing (resolved : Input → Block) (s : State) (i : Input) : State :=
  s.withInput i { s.input i with ring := resolved i :: (s.input i).ring.take 255 }

/-! ## The advance -/

/-- The phase of the measurement advances (R161). -/
def Smn.advance (m : Smn) : Smn :=
  { m with phase := if m.phase = 99 then 0 else m.phase + 1, readDone := false,
           readOwed := m.phase = 99 && !m.readDone }

/-- The mix engine and the controller hold the supply watch's states from the next block on (R111, R149). -/
def syncHandOffs (s : State) : State :=
  (s.withMxe { s.mxe with supply := s.smn.supply, thermal := s.smn.thermal }).withTmc
    { s.tmc with refresh := refreshOf s.smn.thermal }

/-- An input in a new block. -/
def newBlock (s : State) (i : Input) : State := s.withInput i { s.input i with endedHere := false }

/-- The timeline in a new block (R1, R15). -/
def Cyc.tick (c : Cyc) (info : BlockInfo) : Cyc :=
  { c.advance with block := wrap32 (c.block + 1), runOut := none, withheld := false, last := info }

/-- N advances, and with it the position and the phase; the marks of the new block are emitted (R16). A stop due on a cycle
boundary finds C already advanced by that boundary (log 48). -/
def nextBlock (s : State) : State :=
  let s1 := allInputs.foldl newBlock ((syncHandOffs s).withSmn s.smn.advance)
  emitMarks (s1.withCyc (s1.cyc.tick s.info))

/-! ## The boundary -/

/-- What is made of block N before N advances: the writes with their page claims, and then the mix (log 8). The claims of
these writes reach the pool after everything that the requests of block N claim or return (R56, log 56). -/
def finishBlock (order : List Input) (s : State) : State :=
  let resolved (i : Input) : Block := resolvedBlock s i
  let s1 := allInputs.foldl noteSpill (allInputs.foldl resolveInput s)
  let s2 := allInputs.foldl (pushRing resolved) ((fullOrder order).foldl (writeInput resolved) s1)
  closeAccount (mixBlock (allInputs.map fun i => (i, resolved i)) s2)

/-- BLOCK_BOUNDARY: what the hub does of itself in the block first (log 3), then the end of block period N. A stopped hub
keeps the interval of its battery measurement (R168). -/
def execBlockBoundary (order : List Input) (s : State) : Host.Outcome State Fault Refusal :=
  .next (if s.stopped then s.withSmn s.smn.advance else nextBlock (finishBlock order (settleAll s)))

end Sys2Proof.Machine
end

