-- ==== Sys2Proof/Machine/LinkSteps.lean ====
section
/-! DEFINITION. The steps of the station links (chapter 10). A packet (R170) reaches a link in RUN only; on another link its
characters act as R172 gives. -/

namespace Sys2Proof.Machine

/-! ## Hub packets (R175, R176) -/

/-- INPUT_BLOCK (R69, R175). -/
def execInputBlock (lk : Link) (stamp : Byte) (data : List Byte) (s : State) : Host.Outcome State Fault Refusal :=
  unlessStopped s (receiveHub lk (0x02 :: stamp :: data))

/-- REQUEST_PACKET (R176). -/
def execRequestPacket (lk : Link) (body : List Byte) (s : State) : Host.Outcome State Fault Refusal :=
  unlessStopped s (receiveHub lk (0x01 :: body))

/-- UNKNOWN_PACKET (R175). -/
def execUnknownPacket (lk : Link) (bytes : List Byte) (s : State) : Host.Outcome State Fault Refusal :=
  unlessStopped s (receiveHub lk bytes)

/-- HUB_PACKET_FAULT_END (R175): the FAULT_END of a hub packet, whole or in progress. -/
def execHubPacketFaultEnd (lk : Link) (s : State) : Host.Outcome State Fault Refusal :=
  unlessStopped s (receive lk fun s => if (s.link lk).assembly.ofHub then discardFaulted lk s else s)

/-! ## Link errors (R171, R172) -/

/-- The recovery cause of an error that has a count of its own. -/
def recoveryOf : ErrorCause → Option RecoveryCause
  | .parity => some .parity
  | .breakChar => some .breakChar
  | .badCode => some .badCode
  | .strayEnd => some .strayEnd
  | .joinData => none

/-- LINK_ERROR (R171). A data character is an error in JOIN alone; in RUN it is part of a packet, and an END or FAULT_END
inside a packet is that packet's. -/
def execLinkError (lk : Link) (cause : ErrorCause) (char : Nat) (s : State) : Host.Outcome State Fault Refusal :=
  unlessStopped s fun s =>
    match recoveryOf cause with
    | some c =>
      if c = .strayEnd && s.linkRuns lk && (s.link lk).assembly ≠ .outside then s else causedError lk c char s
    | none =>
      match (s.link lk).state with
      | .join => joinDataError lk char s
      | .listen => mapLink lk (fun r => { r with bringUp := 0 }) s
      | .run => s
      | .recover => s

/-- LINK_SILENCE (R171). -/
def execLinkSilence (lk : Link) (char : Nat) (s : State) : Host.Outcome State Fault Refusal :=
  unlessStopped s (causedError lk .silence char)

/-- The time has come, on the wrapping count of character times (log 17). -/
def timeReached (now due : Nat) : Bool := (now + charWrap - due) % charWrap < charWrap / 2

/-- RECOVER_END (R172). -/
def execRecoverEnd (lk : Link) (char : Nat) (s : State) : Host.Outcome State Fault Refusal :=
  unlessStopped s fun s =>
    if (s.link lk).state = .recover && (s.link lk).recoverEnd.all (timeReached (s.charTime char)) then
      mapLink lk (fun r => { r with state := .listen, bringUp := 0, recoverEnd := none }) s
    else s

/-- LISTEN_FILL_COUNT: 8 FILL in a row take the link to JOIN (R172). -/
def execListenFillCount (lk : Link) (fills : Nat) (s : State) : Host.Outcome State Fault Refusal :=
  unlessStopped s fun s =>
    if (s.link lk).state = .listen then
      mapLink lk (fun r =>
        if 8 ≤ r.bringUp + fills then { r with state := .join, bringUp := 0 }
        else { r with bringUp := r.bringUp + fills }) s
    else s

/-- FRESH_JOIN (R173): the 16th FILL of JOIN has been sent with no error received (R172). -/
def execFreshJoin (lk : Link) (s : State) : Host.Outcome State Fault Refusal :=
  unlessStopped s fun s => if (s.link lk).state = .join && (s.link lk).bringUp = 15 then join lk s else s

/-! ## Forwards (R177 to R179) -/

/-- The destination byte of a packet, received outside a packet. -/
def receiveDest (lk : Link) (k : State → State) (s : State) : State :=
  receive lk (fun s => if (s.link lk).assembly = .outside then k s else s) s

/-- FORWARD_ROUTE (R177); the destination 0xFF is a broadcast's (R179), and 0x00 begins a hub packet (R175). -/
def execForwardRoute (lk : Link) (dest : Byte) (s : State) : Host.Outcome State Fault Refusal :=
  unlessStopped s (receiveDest lk (beginPacket lk dest))

/-- BROADCAST_ROUTE (R179). -/
def execBroadcastRoute (lk : Link) (s : State) : Host.Outcome State Fault Refusal :=
  unlessStopped s (receiveDest lk (routeBroadcast lk))

/-- FORWARD_DATA_BYTE (R177): a data byte of any packet, its destination byte included. -/
def execForwardDataByte (lk : Link) (byte : Byte) (s : State) : Host.Outcome State Fault Refusal :=
  unlessStopped s (receive lk (dataByte lk byte))

/-- FORWARD_END (R177): the END of the packet in progress, a hub packet's included. -/
def execForwardEnd (lk : Link) (s : State) : Host.Outcome State Fault Refusal :=
  unlessStopped s (receiveEnd lk (packetEnd lk))

/-- FORWARD_FAULT_END (R178): the FAULT_END of the packet in progress, a hub packet's included. -/
def execForwardFaultEnd (lk : Link) (s : State) : Host.Outcome State Fault Refusal :=
  unlessStopped s (receiveEnd lk (packetFault lk))

/-- The 257th byte after the address, of a forward that holds 256 (R178). -/
def closeTooLong (lk : Link) (s : State) : State :=
  match (s.link lk).assembly with
  | .forward f => if f.received = 256 then tooLong lk f s else s
  | _ => s

/-- FORWARD_TOO_LONG (R178). -/
def execForwardTooLong (lk : Link) (s : State) : Host.Outcome State Fault Refusal :=
  unlessStopped s (receive lk (closeTooLong lk))

/-! ## Transmission (R180) -/

/-- TRANSMIT_START (R180); in JOIN the transmitter sends FILL, which is counted (R172). -/
def execTransmitStart (lk : Link) (s : State) : Host.Outcome State Fault Refusal :=
  unlessStopped s fun s => if (s.link lk).state = .join then countFill lk s else startPacket lk s

/-- TRANSMIT_END (R177). -/
def execTransmitEnd (lk : Link) (s : State) : Host.Outcome State Fault Refusal := unlessStopped s (endPacket lk)

end Sys2Proof.Machine
end

