-- ==== Sys2Proof/Machine/SettingRequests.lean ====
section
/-! DEFINITION. The requests on levels, station settings, hold and supply limits (R74, R126, R128, R151, R157, R167,
R186), and the read requests (R187): what their owners do, and their meanings. -/

namespace Sys2Proof.Machine

/-! ## Levels -/

/-- BUS_LEVEL (R126). -/
def ownBusLevel (bus : Byte) (level : Word16) (s : State) : Answer :=
  match busArg bus with
  | none => answer s .badArg
  | some (a, b) =>
    answer (s.withMxe
      { s.mxe with levelA := if a then levelArg level else s.mxe.levelA,
                   levelB := if b then levelArg level else s.mxe.levelB }) .ok

/-- MONITOR_SET (R74). -/
def ownMonitorSet (input : Byte) (nomA nomB takeA takeB : Word16) (s : State) : Answer :=
  match inputArg input with
  | none => answer s .badArg
  | some i =>
    answer (s.withInput i
      { s.input i with nomA := levelArg nomA, nomB := levelArg nomB, takeA := levelArg takeA,
                       takeB := levelArg takeB }) .ok

/-! ## A station's own settings (R186) -/

/-- GRACE_SET. -/
def ownGraceSet (lk : Link) (grace : Byte) (s : State) : Answer :=
  answer (s.withStation lk { s.station lk with grace := graceArg grace }) .ok

/-- RETURN_SET (R128). -/
def ownReturnSet (lk : Link) (ret : Byte) (s : State) : Answer :=
  match returnArg ret with
  | none => answer s .badArg
  | some r => answer (s.withStation lk { s.station lk with ret := r }) .ok

/-- EVENTS_SET. -/
def ownEventsSet (lk : Link) (kinds : BitVec 24) (s : State) : Answer :=
  answer (s.withStation lk { s.station lk with subs := kindsArg kinds }) .ok

/-- QUIET_SET; with the setting off the quiet has ended when the request was taken (R191). -/
def ownQuietSet (lk : Link) (setting : Byte) (s : State) : Answer :=
  match settingArg setting with
  | none => answer s .badArg
  | some true => answer (s.withStation lk { s.station lk with quiet := true }) .ok
  | some false => answer s .ok

/-! ## Hold and resume -/

/-- HOLD (R151). -/
def ownHold (lk : Link) (s : State) : Answer :=
  if s.tmc.mem = .active then answer (enterHold .request (some lk) s) .ok else answer s .ok

/-- RESUME (R157). -/
def ownResume (s : State) : Answer :=
  if s.tmc.mem ≠ .retaining then answer s .wrongState
  else if s.smn.thermal = .scorch || s.smn.temperature.any fun c => 90 ≤ c then answer s .cooling
  else if s.smn.supply = .critical then answer s .lowSupply
  else
    answer (s.withTmc
      { s.tmc with mem := .waking, wakeCause := some .resume, wakeEnd := some (wrap32 (s.cyc.block + 2)) }) .ok

/-- SUPPLY_LIMITS (R167). -/
def ownSupplyLimits (thrift critical : Word16) (s : State) : Answer :=
  let t := limitArg thrift
  let k := limitArg critical
  if t < k + 200 then answer s .badArg
  else (s.withSmn { s.smn with thrift := t, critical := k }, .ok, .limits t k)

/-! ## Read-back (R187) -/

/-- A read request answered OK with its record. -/
def readAnswer (s : State) (record : List Byte) : Answer := (s, .ok, .record record)

/-- READ_TRACK. -/
def ownReadTrack (track : Byte) (s : State) : Answer :=
  match trackArg track with
  | none => answer s .badArg
  | some t => readAnswer s (trackRecord s t)

/-- READ_LAYER. -/
def ownReadLayer (layer : Byte) (s : State) : Answer :=
  match layerArg layer with
  | none => answer s .badArg
  | some id => readAnswer s (layerRecord (s.layer id))

/-- READ_STATION. -/
def ownReadStation (station : Byte) (s : State) : Answer :=
  match stationArg station with
  | none => answer s .badArg
  | some n => readAnswer s (stationRecord s n)

/-! ## The meanings -/

def execBusLevel (lk : Link) (tag bus : Byte) (level : Word16) (s : State) : Host.Outcome State Fault Refusal :=
  .next (serve lk (.busLevel lk tag bus level) 0x12 (some tag) true (ownBusLevel bus level) s)

def execMonitorSet (lk : Link) (tag input : Byte) (nomA nomB takeA takeB : Word16) (s : State) :
    Host.Outcome State Fault Refusal :=
  .next (serve lk (.monitorSet lk tag input nomA nomB takeA takeB) 0x13 (some tag) true
    (ownMonitorSet input nomA nomB takeA takeB) s)

def execGraceSet (lk : Link) (tag grace : Byte) (s : State) : Host.Outcome State Fault Refusal :=
  .next (serve lk (.graceSet lk tag grace) 0x14 (some tag) true (ownGraceSet lk grace) s)

def execReturnSet (lk : Link) (tag ret : Byte) (s : State) : Host.Outcome State Fault Refusal :=
  .next (serve lk (.returnSet lk tag ret) 0x15 (some tag) true (ownReturnSet lk ret) s)

def execEventsSet (lk : Link) (tag : Byte) (kinds : BitVec 24) (s : State) : Host.Outcome State Fault Refusal :=
  .next (serve lk (.eventsSet lk tag kinds) 0x16 (some tag) true (ownEventsSet lk kinds) s)

def execQuietSet (lk : Link) (tag setting : Byte) (s : State) : Host.Outcome State Fault Refusal :=
  .next (serve lk (.quietSet lk tag setting) 0x17 (some tag) (setting ≠ 0x01) (ownQuietSet lk setting) s)

def execHold (lk : Link) (tag : Byte) (s : State) : Host.Outcome State Fault Refusal :=
  .next (serve lk (.hold lk tag) 0x18 (some tag) true (ownHold lk) s)

def execResume (lk : Link) (tag : Byte) (s : State) : Host.Outcome State Fault Refusal :=
  .next (serve lk (.resume lk tag) 0x19 (some tag) true ownResume s)

def execSupplyLimits (lk : Link) (tag : Byte) (thrift critical : Word16) (s : State) :
    Host.Outcome State Fault Refusal :=
  .next (serve lk (.supplyLimits lk tag thrift critical) 0x1A (some tag) true (ownSupplyLimits thrift critical) s)

def execReadCycle (lk : Link) (tag : Byte) (s : State) : Host.Outcome State Fault Refusal :=
  .next (serve lk (.readCycle lk tag) 0x1B (some tag) true (fun s => readAnswer s (cycleRecord s.cyc)) s)

def execReadTrack (lk : Link) (tag track : Byte) (s : State) : Host.Outcome State Fault Refusal :=
  .next (serve lk (.readTrack lk tag track) 0x1C (some tag) true (ownReadTrack track) s)

def execReadLayer (lk : Link) (tag layer : Byte) (s : State) : Host.Outcome State Fault Refusal :=
  .next (serve lk (.readLayer lk tag layer) 0x1D (some tag) true (ownReadLayer layer) s)

def execReadPool (lk : Link) (tag : Byte) (s : State) : Host.Outcome State Fault Refusal :=
  .next (serve lk (.readPool lk tag) 0x1E (some tag) true (fun s => readAnswer s (poolRecord s)) s)

def execReadStation (lk : Link) (tag station : Byte) (s : State) : Host.Outcome State Fault Refusal :=
  .next (serve lk (.readStation lk tag station) 0x1F (some tag) true (ownReadStation station) s)

def execReadHub (lk : Link) (tag : Byte) (s : State) : Host.Outcome State Fault Refusal :=
  .next (serve lk (.readHub lk tag) 0x20 (some tag) true (fun s => readAnswer s (hubRecord s)) s)

end Sys2Proof.Machine
end

