-- ==== Sys2Proof/Machine/ResetRequests.lean ====
section
/-! DEFINITION. HUB_RESET (R188, with R22, R50, R67, R93, R108, R131, R145, R160, R169, R182), the requests refused by
R184's steps 1 to 3, and the power-on reset (R182). -/

namespace Sys2Proof.Machine

/-! ## The blocks' HUB_RESET values -/

/-- The timeline after HUB_RESET: N counts on (R22, section 1.2). -/
def Cyc.hubReset (c : Cyc) : Cyc := { Cyc.reset with block := c.block, last := c.last }

/-- An input after HUB_RESET (R93); an aborted pass still counts in the block of the reset (log 38). -/
def InputRec.hubReset (r : InputRec) : InputRec :=
  { InputRec.reset with endedHere := r.pass.isSome || r.endedHere }

/-- The pass engine after HUB_RESET (R93). -/
def resetInputs (s : State) : State :=
  { s with pse := { Pse.reset with
      inputs := (((s.pse.inputs.set 0 s.pse.inputs[0].hubReset).set 1 s.pse.inputs[1].hubReset).set 2
        s.pse.inputs[2].hubReset).set 3 s.pse.inputs[3].hubReset } }

/-- The mix engine after HUB_RESET (R131); the supply and thermal states it holds are kept (log 36). -/
def Mxe.hubReset (m : Mxe) : Mxe := { Mxe.reset with supply := m.supply, thermal := m.thermal }

/-- The take memory controller after HUB_RESET in block `n` with thermal state `h` (R160); a trigger not yet taken is kept
(log 35). -/
def Tmc.hubReset (t : Tmc) (n : Nat) (h : Thermal) : Tmc :=
  let base := { Tmc.reset with refresh := refreshOf h, trigger := t.trigger }
  match t.mem with
  | .active => base
  | .draining => base
  | .retaining =>
    { base with mem := .waking, holdCause := t.holdCause, holdStation := t.holdStation, holdEntry := t.holdEntry,
                wakeCause := some .reset, wakeEnd := some (wrap32 (n + 2)) }
  | .waking =>
    { base with mem := .waking, holdCause := t.holdCause, holdStation := t.holdStation, holdEntry := t.holdEntry,
                wakeCause := some .reset, wakeEnd := t.wakeEnd }

/-- The supply watch after HUB_RESET (R161, R169). -/
def Smn.hubReset (m : Smn) : Smn :=
  { m with thrift := 6600, critical := 6000, lowest := m.battery, highest := m.temperature, changes := 0 }

/-- The links after HUB_RESET: events not yet begun are discarded, the counters return to 0 (R182, R188). -/
def resetLinks (s : State) : State :=
  allLinks.foldl (fun s lk => mapLink lk (fun r =>
    { r with events := [], counters := LinkCounters.zero, station := StationCounters.zero }) s) s

/-! ## HUB_RESET -/

/-- The CANCELLED replies that the reset owes (R108, R145). -/
def cancelOwed (s : State) : State :=
  let s1 := cancelQueue s
  let s2 := match s1.bne.active with
    | some b =>
      if b.owed then reply b.station bounceCode b.tag true .cancelled (.bounce b.peak b.clips none) s1 else s1
    | none => s1
  cancelWaiting s2

/-- Every block but the links at its HUB_RESET values; the request queues and the reply queues stand (R188). -/
def resetBlocks (s : State) : State :=
  let s1 := resetInputs s
  let s2 := { s1 with
    cyc := s.cyc.hubReset, lys := Lys.reset, pgp := Pgp.reset, aqu := Aqu.reset, mxe := s.mxe.hubReset,
    bne := Bne.reset, tmc := s.tmc.hubReset s.cyc.block s.smn.thermal, smn := s.smn.hubReset }
  resetLinks { s2 with rqu.stations := Vector.replicate 4 Settings.reset }

/-- HUB_RESTARTED (R188). -/
def emitRestarted (lk : Link) (s : State) : State := emit (.hubRestarted lk s.cyc.block s.tmc.mem) s

/-- HOLD_STATE of a reset taken in DRAINING (R160). -/
def emitResetActive (s : State) : State := emit (.holdActive .reset s.cyc.state) s

/-- HUB_RESET (R188); in DRAINING the order of its two events is open (log 21). Marks of the block that were withheld would
be events not yet begun, which the reset discards (log 43). -/
def ownHubReset (lk : Link) (s : State) : Answer :=
  let s1 := resetBlocks (cancelOwed s)
  if s.tmc.mem = .draining then
    let first := Config.freeRestartedFirst s1.freeIndex
    let s2 := s1.nextFree
    answer (if first then emitResetActive (emitRestarted lk s2) else emitRestarted lk (emitResetActive s2)) .ok
  else answer (emitRestarted lk s1) .ok

/-! ## Requests refused before their owner (R184) -/

/-- Steps 1 to 3 of R184: a packet of fewer than 4 bytes or grown beyond 264 is MALFORMED, a code outside the catalogue
UNKNOWN, a wrong length MALFORMED. -/
def ownUnknown (body : List Byte) (overlong : Bool) (s : State) : Answer :=
  if overlong || body.length < 2 then answer s .malformed
  else if (catalogueArgs (body.getD 0 0).toNat).isNone then answer s .unknown
  else answer s .malformed

/-! ## The power-on values -/

/-- Every block at its power-on values; the commands that wait and the free-value counter are the model's own and stay
(log 25). -/
def powerOn (s : State) : State := { State.reset with freeIndex := s.freeIndex, pending := s.pending }

/-! ## The meanings -/

def execHubReset (lk : Link) (tag : Byte) (s : State) : Host.Outcome State Fault Refusal :=
  .next (serve lk (.hubReset lk tag) 0x21 (some tag) true (ownHubReset lk) s)

def execUnknownRequest (lk : Link) (body : List Byte) (overlong : Bool) (s : State) :
    Host.Outcome State Fault Refusal :=
  .next (serve lk (.unknownRequest lk body overlong) (body.getD 0 0) body[1]? true (ownUnknown body overlong) s)

/-- POWER_ON_RESET, asserted at any time, in a brownout too (R168, R182). -/
def execPowerOnReset (s : State) : Host.Outcome State Fault Refusal := .next (powerOn s)

end Sys2Proof.Machine
end

