-- ==== Sys2Proof/Machine/SupplySteps.lean ====
section
/-! DEFINITION. SUPPLY_READING (R161 to R166, R168) and BROWNOUT_END (R168). -/

namespace Sys2Proof.Machine

/-! ## A reading -/

/-- A reading can be completed now: in the phase-99 period, or just after it (R161, log 24). -/
def State.readingDue (s : State) : Bool := s.smn.readOwed || (s.smn.phase = 99 && !s.smn.readDone)

/-- The reading due has been made; nothing else is kept of it (log 24). -/
def Smn.markRead (m : Smn) : Smn := { m with readDone := !m.readOwed, readOwed := false }

/-- The least of a reading so far and a new one. -/
def lowestOf (old : Option Nat) (v : Nat) : Nat := match old with
  | none => v
  | some x => min x v

/-- The greatest of a reading so far and a new one. -/
def highestOf (old : Option Int) (c : Int) : Int := match old with
  | none => c
  | some x => max x c

/-- The supply watch after a reading of `v` mV and `c` degrees (R161 to R163, R166). -/
def Smn.after (m : Smn) (v : Nat) (c : Int) : Smn :=
  let u := supplyAfter m.supply v m.thrift m.critical
  let h := thermalAfter m.thermal c
  { m with battery := some v, temperature := some c, supply := u, thermal := h,
           lowest := some (lowestOf m.lowest v), highest := some (highestOf m.highest c),
           changes := sat32 (m.changes + (if u = m.supply then 0 else 1) + (if h = m.thermal then 0 else 1)),
           readDone := !m.readOwed, readOwed := false }

/-- What the reading hands to the mix engine and the controller now; the rest they take at the boundary (R164). -/
def handStates (o : HandOff) (late : Bool) (s : State) : State :=
  (s.withMxe
    { s.mxe with supply := if late || !o.supplyLate then s.smn.supply else s.mxe.supply,
                 thermal := if late || !o.thermalLate then s.smn.thermal else s.mxe.thermal }).withTmc
    { s.tmc with refresh := if late || !o.chargeLate then refreshOf s.smn.thermal else s.tmc.refresh }

/-- The trigger of the reading, with the block of the reading (R165). -/
def handTrigger (block : Nat) (s : State) : State :=
  match triggerCause s.smn.supply s.smn.thermal with
  | none => s
  | some c => s.withTmc { s.tmc with trigger := some (c, block) }

/-- SUPPLY_STATE, if the reading changed the supply state (R166). -/
def emitSupply (info : BlockInfo) (old : Supply) (v : Nat) (s : State) : State :=
  if s.smn.supply = old then s
  else emitAt info (.supplyState s.smn.supply old v s.smn.thrift s.smn.critical s.inHold) s

/-- THERMAL_STATE, if the reading changed the thermal state (R166). -/
def emitThermal (info : BlockInfo) (old : Thermal) (c : Int) (s : State) : State :=
  if s.smn.thermal = old then s else emitAt info (.thermalState s.smn.thermal old c s.inHold) s

/-- A reading that is no brownout. Its events are queued at once, and so before the HOLD_STATE of the hold that its trigger
enters, in the same block too (log 54). A late reading takes the limits and the hold as they stand at the command, and only
the event fields from its own block (R166, log 24). -/
def takeReading (v : Nat) (c : Int) (o : HandOff) (s : State) : State :=
  let late := s.smn.readOwed
  let block := if late then diff32 s.cyc.block 1 else s.cyc.block
  let info := s.infoOf late
  let s1 := handTrigger block (handStates o late (s.withSmn (s.smn.after v c)))
  if o.thermalFirst then emitSupply info s.smn.supply v (emitThermal info s.smn.thermal c s1)
  else emitThermal info s.smn.thermal c (emitSupply info s.smn.supply v s1)

/-- A brownout: the hub stops, and nothing is kept but the interval of the battery measurement (R168, log 25). -/
def brownout (s : State) : State :=
  { powerOn s with stopped := true, smn := { Smn.reset with phase := s.smn.phase, readOwed := s.smn.readOwed }.markRead }

/-! ## The meanings -/

/-- SUPPLY_READING (R161). -/
def execSupplyReading (battery : Nat) (temperature : Option Int) (o : HandOff) (s : State) :
    Host.Outcome State Fault Refusal :=
  .next
    (if s.stopped || !s.readingDue then s
     else if battery < 3300 then brownout s
     else takeReading (batteryRange battery) (temperatureRange temperature) o s)

/-- BROWNOUT_END, a battery measurement of a stopped hub, where one is due: the first at 3 300 mV or above is a power-on
reset (R168). -/
def execBrownoutEnd (battery : Nat) (s : State) : Host.Outcome State Fault Refusal :=
  .next
    (if s.stopped && s.readingDue then
       if 3300 ≤ battery then powerOn s else s.withSmn s.smn.markRead
     else s)

end Sys2Proof.Machine
end

