-- ==== Sys2Proof/Machine/TimelineRequests.lean ====
section
/-! DEFINITION. The requests on the timeline (R3 to R10, R19, R20, R22) and on the pass engine (R77, R82): what their
owners do, and their meanings. -/

namespace Sys2Proof.Machine

/-! ## CYCLE_SET and TAP -/

/-- CYCLE_SET (R3, R5). -/
def ownCycleSet (length : Word16) (beats : Byte) (s : State) : Answer :=
  match beatsArg beats with
  | none => answer s .badArg
  | some b =>
    outsideHold s fun s =>
      if s.cyc.state = .unset then
        answer (emitMarks (s.withCyc (s.cyc.startCycle (roundCycle (lengthArg length) b) b))) .ok
      else answer s .wrongState

/-- TAP (R3, R6, R7). -/
def ownTap (beats : Byte) (s : State) : Answer :=
  match tapBeatsArg beats with
  | none => answer s .badArg
  | some b =>
    outsideHold s fun s =>
      if s.cyc.state = .unset then answer (s.withCyc (s.cyc.firstTap b)) .ok
      else if s.cyc.state = .counting && s.cyc.schedStart.isNone then answer (s.withCyc (s.cyc.nextTap b)) .ok
      else answer s .wrongState

/-! ## The transport -/

/-- TRANSPORT_STOP (R3, R19, R99). -/
def ownTransportStop (lk : Link) (tag quantize : Byte) (s : State) : Answer :=
  match quantizeArg quantize with
  | none => answer s .badArg
  | some q => takeQuantized lk tag .transportStop q s

/-- TRANSPORT_START (R3, R20). -/
def ownTransportStart (quantize : Byte) (s : State) : Answer :=
  match quantizeArg quantize with
  | none => answer s .badArg
  | some _ =>
    outsideHold s fun s =>
      if s.cyc.state = .paused then answer (emitMarks (restart s)) .ok else answer s .wrongState

/-- SONG_CLEAR (R22, R49). Marks of the block that were withheld for a hold not yet made are emitted first (R16, log 43).
The POOL_LOW, the PASS_ENDED and the BOUNCE_ENDED of the freeing carry the timeline from before the return to UNSET
(log 52). The CANCELLED replies of the bounce engine precede those of the action queue (log 50). -/
def ownSongClear (s : State) : Answer :=
  outsideHold s fun s =>
    let stops : Bool := s.cyc.state = .running || s.cyc.afterFourthTap
    let s1 := clearSong (releaseMarks s)
    let s2 := s1.withCyc { s1.cyc.toUnset with count := 0 }
    answer (if stops then cancelQueue s2 else s2) .ok

/-! ## The pass requests -/

/-- PASS_OPEN (R77, R99). -/
def ownPassOpen (lk : Link) (tag input track quantize : Byte) (s : State) : Answer :=
  match inputArg input, trackArg track, quantizeArg quantize with
  | some i, some t, some q => takeQuantized lk tag (.passOpen i t) q s
  | _, _, _ => answer s .badArg

/-- PASS_CLOSE (R82, R99). -/
def ownPassClose (lk : Link) (tag input quantize : Byte) (s : State) : Answer :=
  match inputArg input, quantizeArg quantize with
  | some i, some q => takeQuantized lk tag (.passClose i) q s
  | _, _ => answer s .badArg

/-! ## The meanings -/

def execCycleSet (lk : Link) (tag : Byte) (length : Word16) (beats : Byte) (s : State) :
    Host.Outcome State Fault Refusal :=
  .next (serve lk (.cycleSet lk tag length beats) 0x01 (some tag) true (ownCycleSet length beats) s)

def execTap (lk : Link) (tag : Byte) (beats : Byte) (s : State) : Host.Outcome State Fault Refusal :=
  .next (serve lk (.tap lk tag beats) 0x02 (some tag) true (ownTap beats) s)

def execTransportStop (lk : Link) (tag quantize : Byte) (s : State) : Host.Outcome State Fault Refusal :=
  .next (serve lk (.transportStop lk tag quantize) 0x03 (some tag) true (ownTransportStop lk tag quantize) s)

def execTransportStart (lk : Link) (tag quantize : Byte) (s : State) : Host.Outcome State Fault Refusal :=
  .next (serve lk (.transportStart lk tag quantize) 0x04 (some tag) true (ownTransportStart quantize) s)

def execSongClear (lk : Link) (tag : Byte) (s : State) : Host.Outcome State Fault Refusal :=
  .next (serve lk (.songClear lk tag) 0x05 (some tag) true ownSongClear s)

def execPassOpen (lk : Link) (tag input track quantize : Byte) (s : State) : Host.Outcome State Fault Refusal :=
  .next (serve lk (.passOpen lk tag input track quantize) 0x06 (some tag) true
    (ownPassOpen lk tag input track quantize) s)

def execPassClose (lk : Link) (tag input quantize : Byte) (s : State) : Host.Outcome State Fault Refusal :=
  .next (serve lk (.passClose lk tag input quantize) 0x07 (some tag) true (ownPassClose lk tag input quantize) s)

end Sys2Proof.Machine
end

