-- ==== Sys2Proof/Machine/TrackRequests.lean ====
section
/-! DEFINITION. The requests on tracks and layers (R37 to R48) and BOUNCE (R133): what their owners do, and their
meanings. -/

namespace Sys2Proof.Machine

/-! ## The quantized requests (R37, R99) -/

/-- A quantized request whose only arguments are a track and a quantize mode. -/
def ownOnTrack (lk : Link) (tag : Byte) (f : TrackId → Action) (track quantize : Byte) (s : State) : Answer :=
  match trackArg track, quantizeArg quantize with
  | some t, some q => takeQuantized lk tag (f t) q s
  | _, _ => answer s .badArg

/-- TRACK_MUTE (R43). -/
def ownTrackMute (lk : Link) (tag track quantize setting : Byte) (s : State) : Answer :=
  match trackArg track, quantizeArg quantize, settingArg setting with
  | some t, some q, some on => takeQuantized lk tag (.trackMute t on) q s
  | _, _, _ => answer s .badArg

/-! ## The immediate requests on tracks -/

/-- TRACK_ERASE (R42). -/
def ownTrackErase (track : Byte) (s : State) : Answer :=
  match trackArg track with
  | none => answer s .badArg
  | some t => outsideHold s fun s => answer (execErase t s).1 (execErase t s).2

/-- TRACK_LEVEL (R44). -/
def ownTrackLevel (track : Byte) (level : Word16) (s : State) : Answer :=
  match trackArg track with
  | none => answer s .badArg
  | some t => outsideHold s fun s => answer (s.withTrack t { s.track t with level := levelArg level }) .ok

/-- TRACK_ROUTE (R45). -/
def ownTrackRoute (track route : Byte) (s : State) : Answer :=
  match trackArg track, routeArg route with
  | some t, some r => outsideHold s fun s => answer (s.withTrack t { s.track t with route := r }) .ok
  | _, _ => answer s .badArg

/-! ## The requests on layers -/

/-- LAYER_LEVEL (R46). -/
def ownLayerLevel (layer : Byte) (level : Word16) (s : State) : Answer :=
  match layerArg layer with
  | none => answer s .badArg
  | some id =>
    outsideHold s fun s =>
      match s.layer id with
      | none => answer s .wrongState
      | some l =>
        if l.state = .forming then answer s .wrongState
        else if l.state = .live && s.isSource id then answer s .bouncing
        else answer (s.withLayer id (some { l with level := levelArg level })) .ok

/-- LAYER_PIN with the setting on (R47), within the limit of R64. -/
def pinOn (id : LayerId) (s : State) : Answer :=
  match s.layer id with
  | none => answer s .wrongState
  | some l =>
    if l.state = .recording || l.state = .forming then answer s .wrongState
    else if s.isSource id then answer s .bouncing
    else if l.pinned then answer s .ok
    else if 3072 < s.pgp.pinnedTotal + l.map.length then answer s .pinLimit
    else
      answer ((s.withLayer id (some { l with pinned := true })).withPgp
        { s.pgp with pinnedTotal := s.pgp.pinnedTotal + l.map.length }) .ok

/-- LAYER_PIN with the setting off (R48). -/
def pinOff (id : LayerId) (s : State) : Answer :=
  match s.layer id with
  | none => answer s .ok
  | some l =>
    if l.pinned then
      answer ((s.withLayer id (some { l with pinned := false })).withPgp
        { s.pgp with pinnedTotal := s.pgp.pinnedTotal - l.map.length }) .ok
    else answer s .ok

/-- LAYER_PIN (R47, R48). -/
def ownLayerPin (layer setting : Byte) (s : State) : Answer :=
  match layerArg layer, settingArg setting with
  | some id, some on => outsideHold s fun s => if on then pinOn id s else pinOff id s
  | _, _ => answer s .badArg

/-! ## BOUNCE -/

/-- The active bounce or a waiting entry was requested by this station (R133). -/
def State.bouncesFor (s : State) (lk : Link) : Bool :=
  s.bne.active.any (fun b => b.station = lk) || s.bne.waiting.any fun w => w.station = lk

/-- BOUNCE (R133). -/
def ownBounce (lk : Link) (tag track count mode : Byte) (s : State) : Answer :=
  match trackArg track, bounceCountArg count, bounceModeArg mode with
  | some t, some j, some m =>
    outsideHold s fun s =>
      if s.bouncesFor lk then answer s .busy
      else if s.bne.engine = .idle && s.bne.waiting.isEmpty then
        match startBounce t j m lk tag s with
        | .ok s1 => answer s1 .ok
        | .error c => answer s c
      else answer (s.withBne { s.bne with waiting := s.bne.waiting ++ [⟨t, j, m, lk, tag⟩] }) .queued
  | _, _, _ => answer s .badArg

/-! ## The meanings -/

def execLayerUndo (lk : Link) (tag track quantize : Byte) (s : State) : Host.Outcome State Fault Refusal :=
  .next (serve lk (.layerUndo lk tag track quantize) 0x08 (some tag) true
    (ownOnTrack lk tag .layerUndo track quantize) s)

def execLayerRedo (lk : Link) (tag track quantize : Byte) (s : State) : Host.Outcome State Fault Refusal :=
  .next (serve lk (.layerRedo lk tag track quantize) 0x09 (some tag) true
    (ownOnTrack lk tag .layerRedo track quantize) s)

def execTrackMute (lk : Link) (tag track quantize setting : Byte) (s : State) : Host.Outcome State Fault Refusal :=
  .next (serve lk (.trackMute lk tag track quantize setting) 0x0A (some tag) true
    (ownTrackMute lk tag track quantize setting) s)

def execTrackClear (lk : Link) (tag track quantize : Byte) (s : State) : Host.Outcome State Fault Refusal :=
  .next (serve lk (.trackClear lk tag track quantize) 0x0B (some tag) true
    (ownOnTrack lk tag .trackClear track quantize) s)

def execTrackErase (lk : Link) (tag track : Byte) (s : State) : Host.Outcome State Fault Refusal :=
  .next (serve lk (.trackErase lk tag track) 0x0C (some tag) true (ownTrackErase track) s)

def execTrackLevel (lk : Link) (tag track : Byte) (level : Word16) (s : State) : Host.Outcome State Fault Refusal :=
  .next (serve lk (.trackLevel lk tag track level) 0x0D (some tag) true (ownTrackLevel track level) s)

def execTrackRoute (lk : Link) (tag track route : Byte) (s : State) : Host.Outcome State Fault Refusal :=
  .next (serve lk (.trackRoute lk tag track route) 0x0E (some tag) true (ownTrackRoute track route) s)

def execLayerLevel (lk : Link) (tag layer : Byte) (level : Word16) (s : State) : Host.Outcome State Fault Refusal :=
  .next (serve lk (.layerLevel lk tag layer level) 0x0F (some tag) true (ownLayerLevel layer level) s)

def execLayerPin (lk : Link) (tag layer setting : Byte) (s : State) : Host.Outcome State Fault Refusal :=
  .next (serve lk (.layerPin lk tag layer setting) 0x10 (some tag) true (ownLayerPin layer setting) s)

def execBounce (lk : Link) (tag track count mode : Byte) (s : State) : Host.Outcome State Fault Refusal :=
  .next (serve lk (.bounce lk tag track count mode) 0x11 (some tag) true (ownBounce lk tag track count mode) s)

end Sys2Proof.Machine
end

