-- ==== Sys2Proof/Machine/Dispatch.lean ====
section
/-! DEFINITION. The dispatch: one arm per command, each one call of its meaning. -/

namespace Sys2Proof.Machine

def exec (i : Instr) (s : State) : Host.Outcome State Fault Refusal :=
  match i with
  | .cycleSet lk tag length beats => Sys2Proof.Machine.execCycleSet lk tag length beats s
  | .tap lk tag beats => Sys2Proof.Machine.execTap lk tag beats s
  | .transportStop lk tag quantize => Sys2Proof.Machine.execTransportStop lk tag quantize s
  | .transportStart lk tag quantize => Sys2Proof.Machine.execTransportStart lk tag quantize s
  | .songClear lk tag => Sys2Proof.Machine.execSongClear lk tag s
  | .passOpen lk tag input track quantize => Sys2Proof.Machine.execPassOpen lk tag input track quantize s
  | .passClose lk tag input quantize => Sys2Proof.Machine.execPassClose lk tag input quantize s
  | .layerUndo lk tag track quantize => Sys2Proof.Machine.execLayerUndo lk tag track quantize s
  | .layerRedo lk tag track quantize => Sys2Proof.Machine.execLayerRedo lk tag track quantize s
  | .trackMute lk tag track quantize setting => Sys2Proof.Machine.execTrackMute lk tag track quantize setting s
  | .trackClear lk tag track quantize => Sys2Proof.Machine.execTrackClear lk tag track quantize s
  | .trackErase lk tag track => Sys2Proof.Machine.execTrackErase lk tag track s
  | .trackLevel lk tag track level => Sys2Proof.Machine.execTrackLevel lk tag track level s
  | .trackRoute lk tag track route => Sys2Proof.Machine.execTrackRoute lk tag track route s
  | .layerLevel lk tag layer level => Sys2Proof.Machine.execLayerLevel lk tag layer level s
  | .layerPin lk tag layer setting => Sys2Proof.Machine.execLayerPin lk tag layer setting s
  | .bounce lk tag track count mode => Sys2Proof.Machine.execBounce lk tag track count mode s
  | .busLevel lk tag bus level => Sys2Proof.Machine.execBusLevel lk tag bus level s
  | .monitorSet lk tag input nomA nomB takeA takeB => Sys2Proof.Machine.execMonitorSet lk tag input nomA nomB takeA takeB s
  | .graceSet lk tag grace => Sys2Proof.Machine.execGraceSet lk tag grace s
  | .returnSet lk tag ret => Sys2Proof.Machine.execReturnSet lk tag ret s
  | .eventsSet lk tag kinds => Sys2Proof.Machine.execEventsSet lk tag kinds s
  | .quietSet lk tag setting => Sys2Proof.Machine.execQuietSet lk tag setting s
  | .hold lk tag => Sys2Proof.Machine.execHold lk tag s
  | .resume lk tag => Sys2Proof.Machine.execResume lk tag s
  | .supplyLimits lk tag thrift critical => Sys2Proof.Machine.execSupplyLimits lk tag thrift critical s
  | .readCycle lk tag => Sys2Proof.Machine.execReadCycle lk tag s
  | .readTrack lk tag track => Sys2Proof.Machine.execReadTrack lk tag track s
  | .readLayer lk tag layer => Sys2Proof.Machine.execReadLayer lk tag layer s
  | .readPool lk tag => Sys2Proof.Machine.execReadPool lk tag s
  | .readStation lk tag station => Sys2Proof.Machine.execReadStation lk tag station s
  | .readHub lk tag => Sys2Proof.Machine.execReadHub lk tag s
  | .hubReset lk tag => Sys2Proof.Machine.execHubReset lk tag s
  | .unknownRequest lk body overlong => Sys2Proof.Machine.execUnknownRequest lk body overlong s
  | .blockBoundary order => Sys2Proof.Machine.execBlockBoundary order s
  | .scheduledStart => Sys2Proof.Machine.execScheduledStart s
  | .measureAutoClose => Sys2Proof.Machine.execMeasureAutoClose s
  | .openPassEighthBoundary input => Sys2Proof.Machine.execOpenPassEighthBoundary input s
  | .carriedClose input => Sys2Proof.Machine.execCarriedClose input s
  | .passReachesEnd input => Sys2Proof.Machine.execPassReachesEnd input s
  | .spillBlend input => Sys2Proof.Machine.execSpillBlend input s
  | .cutBackfillEnd input => Sys2Proof.Machine.execCutBackfillEnd input s
  | .dueEntryExecute => Sys2Proof.Machine.execDueEntryExecute s
  | .bounceStrokeComplete => Sys2Proof.Machine.execBounceStrokeComplete s
  | .bounceQueueAdvance => Sys2Proof.Machine.execBounceQueueAdvance s
  | .holdEntry => Sys2Proof.Machine.execHoldEntry s
  | .drainComplete => Sys2Proof.Machine.execDrainComplete s
  | .wakeEnd => Sys2Proof.Machine.execWakeEnd s
  | .supplyReading battery temperature handOff => Sys2Proof.Machine.execSupplyReading battery temperature handOff s
  | .brownoutEnd battery => Sys2Proof.Machine.execBrownoutEnd battery s
  | .powerOnReset => Sys2Proof.Machine.execPowerOnReset s
  | .inputBlock lk stamp data => Sys2Proof.Machine.execInputBlock lk stamp data s
  | .requestPacket lk body => Sys2Proof.Machine.execRequestPacket lk body s
  | .unknownPacket lk bytes => Sys2Proof.Machine.execUnknownPacket lk bytes s
  | .hubPacketFaultEnd lk => Sys2Proof.Machine.execHubPacketFaultEnd lk s
  | .linkError lk cause char => Sys2Proof.Machine.execLinkError lk cause char s
  | .linkSilence lk char => Sys2Proof.Machine.execLinkSilence lk char s
  | .recoverEnd lk char => Sys2Proof.Machine.execRecoverEnd lk char s
  | .listenFillCount lk fills => Sys2Proof.Machine.execListenFillCount lk fills s
  | .freshJoin lk => Sys2Proof.Machine.execFreshJoin lk s
  | .forwardRoute lk dest => Sys2Proof.Machine.execForwardRoute lk dest s
  | .broadcastRoute lk => Sys2Proof.Machine.execBroadcastRoute lk s
  | .forwardEnd lk => Sys2Proof.Machine.execForwardEnd lk s
  | .forwardFaultEnd lk => Sys2Proof.Machine.execForwardFaultEnd lk s
  | .forwardTooLong lk => Sys2Proof.Machine.execForwardTooLong lk s
  | .transmitStart lk => Sys2Proof.Machine.execTransmitStart lk s
  | .transmitEnd lk => Sys2Proof.Machine.execTransmitEnd lk s
  | .forwardDataByte lk byte => Sys2Proof.Machine.execForwardDataByte lk byte s

end Sys2Proof.Machine
end

