-- ==== Sys2Proof/Safety.lean ====
section
/-! DEFINITION. The terms in which claims speak of the machine: when nothing is due of itself, and the invariants that the
spec's rules state of the timeline record (R2), of the pages (R51) and of take memory's form. -/

namespace Sys2Proof.Machine

/-! ## Nothing due of itself -/

/-- Nothing is due on an input at the end of the last period or at the start of this block. -/
def State.inputSettled (s : State) (i : Input) : Bool :=
  match s.pass i with
  | none => true
  | some p =>
    !s.endReached i && !(p.state = .spillWait && p.spillReady) && !s.measureFull i && !(s.openAtBoundary p && p.close.isNone && 8 ≤ s.wholeCycles p) &&
      !(s.openAtBoundary p && p.close.isSome && 1 ≤ s.wholeCycles p)

/-- Nothing is due at the end of the last period. -/
def State.endSettled (s : State) : Bool :=
  allInputs.all fun i =>
    match s.pass i with
    | none => true
    | some p => !s.endReached i && !(p.state = .spillWait && p.spillReady)

/-- Nothing is due of itself before a request is taken (log 3). -/
def State.settled (s : State) : Bool :=
  allInputs.all s.inputSettled && !s.wakeDue && !s.startDue && !s.entryDue && !s.advanceDue &&
    !(s.tmc.mem = .draining && s.strokeDue) && !s.drainDue

/-! ## The timeline record (R2, section 1.2) -/

/-- A cycle length and its beats (R2, R4). -/
def legalCycle (len beats : Option Nat) : Prop :=
  ∃ l b, len = some l ∧ beats = some b ∧ 1 ≤ b ∧ b ≤ 16 ∧ 250 ≤ l ∧ l ≤ 30000 ∧ l % b = 0

/-- The fields that each timeline state holds (section 1.2). -/
def legalContent (c : Cyc) : Prop :=
  match c.state with
  | .unset =>
    c.len = none ∧ c.beats = none ∧ c.pos = none ∧ c.count = 0 ∧ c.taps = [] ∧ c.lastTap = none ∧
      c.schedStart = none ∧ c.measureStart = none
  | .counting =>
    c.pos = none ∧ c.count = 0 ∧ c.measureStart = none ∧
      ((c.len = none ∧ c.beats = none ∧ c.taps.length ≤ 2 ∧ c.lastTap.isSome ∧ c.schedStart = none) ∨
        (legalCycle c.len c.beats ∧ c.taps.length = 3 ∧ c.lastTap = none ∧ c.schedStart.isSome))
  | .measuring =>
    c.len = none ∧ c.beats = none ∧ c.pos = none ∧ c.count = 0 ∧ c.taps = [] ∧ c.lastTap = none ∧
      c.schedStart = none ∧ c.measureStart.isSome
  | .running =>
    legalCycle c.len c.beats ∧ (∃ l p, c.len = some l ∧ c.pos = some p ∧ p < l) ∧ c.taps = [] ∧ c.lastTap = none ∧
      c.schedStart = none ∧ c.measureStart = none
  | .paused =>
    legalCycle c.len c.beats ∧ c.pos = some 0 ∧ c.taps = [] ∧ c.lastTap = none ∧ c.schedStart = none ∧
      c.measureStart = none

/-- The timeline record is one that section 1.2 allows. -/
def Cyc.legal (c : Cyc) : Prop :=
  1 ≤ c.setting ∧ c.setting ≤ 16 ∧ c.count < 53760 ∧ c.block < 4294967296 ∧ legalContent c

/-! ## The pages (R51) -/

/-- The pages in the page maps of the layer records. -/
def State.mappedPages (s : State) : List Page :=
  allLayers.flatMap fun id => ((s.layer id).map fun l => l.map.map (·.2)).getD []

/-- Every page is in exactly one place: the free list, the bounce reservation, or one slot of one page map (R51). -/
def State.pagesPlaced (s : State) : Prop :=
  (s.pgp.free ++ s.pgp.reserved ++ s.mappedPages).Perm ((List.range 4096).map (Fin.ofNat 4096))

/-! ## The layer store (R29, R31, R64) -/

/-- Stacks and redo lists hold at most 12 ids, none twice; a stack's layers are RECORDING or LIVE, a redo list's PARKED, all
of the list's track; and every RECORDING or LIVE layer stands in its track's stack, every PARKED one in its redo list. No
FREE and no FORMING record stands in any of them (R29). -/
def State.layersListed (s : State) : Prop :=
  (∀ t, (s.track t).stack.length ≤ 12 ∧ (s.track t).redo.length ≤ 12 ∧ (s.track t).stack.Nodup ∧
    (s.track t).redo.Nodup ∧
    (∀ id ∈ (s.track t).stack, ∃ l, s.layer id = some l ∧ l.track = t ∧ (l.state = .recording ∨ l.state = .live)) ∧
    ∀ id ∈ (s.track t).redo, ∃ l, s.layer id = some l ∧ l.track = t ∧ l.state = .parked) ∧
  ∀ id l, s.layer id = some l →
    (l.state = .recording ∨ l.state = .live → id ∈ (s.track l.track).stack) ∧
      (l.state = .parked → id ∈ (s.track l.track).redo)

/-- The park stamps of the PARKED layers are distinct and below the park counter (R31). -/
def State.stampsBelow (s : State) : Prop :=
  s.lys.parks ≤ 4294967295 ∧
    ∀ id l, s.layer id = some l → l.state = .parked → ∃ n, l.stamp = some n ∧ n < s.lys.parks ∧
      ∀ id' l', s.layer id' = some l' → l'.state = .parked → l'.stamp = some n → id' = id

/-- The pinned-page total is the sum of the pages of the pinned layers, which are LIVE or PARKED, and at most 3 072
(R64). -/
def State.pinsCounted (s : State) : Prop :=
  s.pgp.pinnedTotal = (allLayers.map fun id =>
    ((s.layer id).map fun l => if l.pinned then l.map.length else 0).getD 0).sum ∧ s.pgp.pinnedTotal ≤ 3072 ∧
    ∀ id l, s.layer id = some l → l.pinned = true → l.state = .live ∨ l.state = .parked

/-- Each RECORDING layer has its one open pass, on its own track (R75); the FORMING layer is the active bounce's
destination, and the sources are unpinned LIVE layers of its track (R35, R132, R134). -/
def State.holdersAgree (s : State) : Prop :=
  (∀ i p, s.pass i = some p → (∃ l, s.layer p.layer = some l ∧ l.state = .recording ∧ l.track = p.track) ∧
    ∀ j q, s.pass j = some q → q.layer = p.layer → j = i) ∧
  (∀ id l, s.layer id = some l → l.state = .recording → ∃ i p, s.pass i = some p ∧ p.layer = id) ∧
  (∀ id l, s.layer id = some l → l.state = .forming → ∃ b, s.bne.active = some b ∧ b.dest = some id) ∧
  (s.bne.engine = .idle → s.bne.active = none) ∧
  (∀ b, s.bne.active = some b →
    (∀ id, b.dest = some id → ∃ l, s.layer id = some l ∧ l.state = .forming ∧ l.track = b.track) ∧
      b.sources ≠ [] ∧ (b.sources.map (·.layer)).Nodup ∧
      ∀ x ∈ b.sources, ∃ l, s.layer x.layer = some l ∧ l.state = .live ∧ l.track = b.track ∧ l.pinned = false) ∧
  ∀ w ∈ s.bne.waiting, 2 ≤ w.count

/-- The layer store is in order. -/
def State.storeLegal (s : State) : Prop := s.layersListed ∧ s.stampsBelow ∧ s.pinsCounted ∧ s.holdersAgree

/-! ## The mix (R112, R113, R117) -/

/-- Position `q` lies in the written span of a layer (R27). -/
def Layer.holds (l : Layer) (q : Nat) : Bool :=
  (q + l.length.getD 240000 - l.start) % l.length.getD 240000 < l.written

/-- The layer of a record is a candidate in the current block: the six conditions of R112. -/
def State.sounds (s : State) (id : LayerId) : Bool :=
  (s.layer id).any fun l =>
    l.state = .live && s.cyc.runOut.isNone && !(s.track l.track).mute && (s.track l.track).route ≠ .none &&
      0 < l.level * (s.track l.track).level && (s.trackPos l.track).any l.holds

/-- The pages of an entry of the played-voice set still exist at the position read (R117, R130). -/
def State.lingers (s : State) (e : Played) : Bool :=
  (s.layer e.layer).any fun l =>
    l.serial = e.serial && (l.state = .live || l.state = .parked) &&
      (match s.cyc.runOut with
       | some v => v[e.track]
       | none => s.trackPos e.track).any l.holds

/-- Voice `a` ranks before voice `b`: by gain, then by serial, then by layer number (R113). -/
def Played.ranksOver (a b : Played) : Prop :=
  b.layerLevel * b.trackLevel < a.layerLevel * a.trackLevel ∨
    (a.layerLevel * a.trackLevel = b.layerLevel * b.trackLevel ∧
      (b.serial < a.serial ∨ (a.serial = b.serial ∧ a.layer < b.layer)))

/-- The entry that the layer of a record gives when it is admitted (R119), its rank apart. -/
def State.entryOf (s : State) (id : LayerId) (rank : Nat) : Option Played :=
  (s.layer id).map fun l => ⟨id, l.serial, l.track, l.level, (s.track l.track).level, (s.track l.track).route, rank⟩

/-- At the coming boundary nothing is due, no pass is open and no bounce is active, so that it only resolves, mixes and
accounts the current block. -/
def State.mixesAlone (s : State) : Prop :=
  s.stopped = false ∧ s.settled = true ∧ s.triggerOverdue = false ∧ s.bne.active = none ∧ ∀ i, s.pass i = none

/-- Station `lk` takes an event of this kind that is not urgent, and up to `room` events before it (R189). -/
def State.hears (s : State) (lk : Link) (kind : EventKind) (room : Nat) : Bool :=
  s.linkRuns lk && (s.station lk).subs.contains kind && !(s.station lk).quiet &&
    (s.link lk).events.length + room < 16

/-! ## What a step leaves alone -/

/-- The hub without its links, its request unit and its event router. -/
def State.inner (s : State) : State := { s with slk := Slk.reset, rqu := Rqu.reset }

/-- A link record without its event queue. -/
def LinkRec.besideEvents (r : LinkRec) : LinkRec := { r with events := [] }

/-- A station's settings without what the delivery of events writes (R189 to R191). -/
def Settings.besideEvents (x : Settings) : Settings :=
  { x with quiet := false, pendingKinds := [], missed := false, dropped := 0 }

/-- `u` is `s` but for event queues and for what the delivery of events writes in the stations' settings. -/
def onlyEvents (s u : State) : Prop :=
  u.inner = s.inner ∧ u.rqu.pointer = s.rqu.pointer ∧ u.slk.broadcasts = s.slk.broadcasts ∧
    u.slk.nextGroup = s.slk.nextGroup ∧
    ∀ lk, (u.link lk).besideEvents = (s.link lk).besideEvents ∧
      (u.station lk).besideEvents = (s.station lk).besideEvents

/-! ## Requests -/

/-- The request unit takes this request in this block, and nothing else is due before it (log 3, log 4). -/
def State.ready (s : State) (lk : Link) (c : Instr) : Bool := !s.stopped && s.settled && s.takes lk c

/-- The first reply of a request served in the current block (R185). -/
def State.firstReplyOf (s : State) (code tag : Byte) (rc : ReplyCode) (payload : Payload) : Reply :=
  { request := code, tag := some tag, completion := false, code := rc, stamp := s.cyc.block % 256, payload := payload,
    reception := false }

/-- The state after a request of `lk` has been taken (R183, R191), has had the effect `f`, and has been answered (R185). -/
def State.served (s : State) (lk : Link) (code tag : Byte) (rc : ReplyCode) (f : State → State)
    (payload : Payload := .none) : State :=
  pushReply lk (s.firstReplyOf code tag rc payload) (f (taken lk true s))

/-- The action of a quantized request whose arguments are accepted, with its link, tag and mode (R94). -/
def quantizedOf : Instr → Option (Link × Byte × Action × Quantize)
  | .transportStop lk tag q => (quantizeArg q).map fun m => (lk, tag, .transportStop, m)
  | .passOpen lk tag i t q =>
    match inputArg i, trackArg t, quantizeArg q with
    | some i, some t, some m => some (lk, tag, .passOpen i t, m)
    | _, _, _ => none
  | .passClose lk tag i q =>
    match inputArg i, quantizeArg q with
    | some i, some m => some (lk, tag, .passClose i, m)
    | _, _ => none
  | .layerUndo lk tag t q =>
    match trackArg t, quantizeArg q with
    | some t, some m => some (lk, tag, .layerUndo t, m)
    | _, _ => none
  | .layerRedo lk tag t q =>
    match trackArg t, quantizeArg q with
    | some t, some m => some (lk, tag, .layerRedo t, m)
    | _, _ => none
  | .trackClear lk tag t q =>
    match trackArg t, quantizeArg q with
    | some t, some m => some (lk, tag, .trackClear t, m)
    | _, _ => none
  | .trackMute lk tag t q x =>
    match trackArg t, quantizeArg q, settingArg x with
    | some t, some m, some on => some (lk, tag, .trackMute t on, m)
    | _, _, _ => none
  | _ => none

/-- The argument check of a request's owner accepts it (R184, step 4). -/
def argsAccepted : Instr → Bool
  | .cycleSet _ _ _ b => (beatsArg b).isSome
  | .tap _ _ b => (tapBeatsArg b).isSome
  | .transportStop _ _ q => (quantizeArg q).isSome
  | .transportStart _ _ q => (quantizeArg q).isSome
  | .passOpen _ _ i t q => (inputArg i).isSome && (trackArg t).isSome && (quantizeArg q).isSome
  | .passClose _ _ i q => (inputArg i).isSome && (quantizeArg q).isSome
  | .layerUndo _ _ t q => (trackArg t).isSome && (quantizeArg q).isSome
  | .layerRedo _ _ t q => (trackArg t).isSome && (quantizeArg q).isSome
  | .trackMute _ _ t q x => (trackArg t).isSome && (quantizeArg q).isSome && (settingArg x).isSome
  | .trackClear _ _ t q => (trackArg t).isSome && (quantizeArg q).isSome
  | .trackErase _ _ t => (trackArg t).isSome
  | .trackLevel _ _ t _ => (trackArg t).isSome
  | .trackRoute _ _ t r => (trackArg t).isSome && (routeArg r).isSome
  | .layerLevel _ _ l _ => (layerArg l).isSome
  | .layerPin _ _ l x => (layerArg l).isSome && (settingArg x).isSome
  | .bounce _ _ t j m => (trackArg t).isSome && (bounceCountArg j).isSome && (bounceModeArg m).isSome
  | .busLevel _ _ b _ => (busArg b).isSome
  | .monitorSet _ _ i _ _ _ _ => (inputArg i).isSome
  | .returnSet _ _ r => (returnArg r).isSome
  | .quietSet _ _ x => (settingArg x).isSome
  | .supplyLimits _ _ t k => limitArg k + 200 ≤ limitArg t
  | .readTrack _ _ t => (trackArg t).isSome
  | .readLayer _ _ l => (layerArg l).isSome
  | .readStation _ _ n => (stationArg n).isSome
  | _ => true

/-- The requests that the catalogue marks HELD (R192). -/
def refusedInHold : Instr → Bool
  | .cycleSet .. => true
  | .tap .. => true
  | .transportStop .. => true
  | .transportStart .. => true
  | .songClear .. => true
  | .passOpen .. => true
  | .passClose .. => true
  | .layerUndo .. => true
  | .layerRedo .. => true
  | .trackMute .. => true
  | .trackClear .. => true
  | .trackErase .. => true
  | .trackLevel .. => true
  | .trackRoute .. => true
  | .layerLevel .. => true
  | .layerPin .. => true
  | .bounce .. => true
  | _ => false

/-! ## Bounds -/

/-- The queues, the played-voice set and the refresh charge are within their bounds (R100, R172, R110, R147). -/
def State.bounded (s : State) : Prop :=
  (∀ lk, (s.link lk).requests.length ≤ 4 ∧ (s.link lk).events.length ≤ 16) ∧ s.aqu.queue.length ≤ 16 ∧
    s.mxe.played.length ≤ 32 ∧ s.tmc.refresh ≤ 4

/-- The replies waiting for and owed to a station are within the reply queue's room (R185, R176): at most 21 of the request
unit's, at most 3 reception replies, and no station has more than one bounce (R133). -/
def State.replyRoom (s : State) : Prop :=
  ∀ lk, s.repliesWaiting lk + s.repliesOwed lk ≤ 21 ∧ ((s.link lk).replies.filter (·.reception)).length ≤ 3 ∧
    (s.bne.waiting.filter fun w => w.station = lk).length +
      (if s.bne.active.any (fun b => b.station = lk) then 1 else 0) ≤ 1

end Sys2Proof.Machine
end

