-- ==== Sys2Proof/Certificates/Slice0/Obligations.lean ====
section
/-! DEFINITION. The statements for the provers, one `def Obligations.<Name> : Prop` each.

A request's statement speaks of a hub in which the request unit takes that request next and nothing else is due
(`State.ready`), and gives the whole next state: `State.served` takes the request, applies the effect it is given, and
places the first reply. What `served` does beside that effect is the statement RequestIsTakenAndAnswered. -/

open Sys2Proof Sys2Proof.Machine

/-! ## Steps, packets and invariants -/

/-- A step executes the command at the front of the queue with the queue's rest; on an empty queue the block idles (the
model's choice, log 2). -/
def Obligations.StepRunsTheFrontCommand : Prop :=
  (∀ (c : Instr) (rest : List Instr) (s : State),
    step { s with pending := c :: rest } = exec c { s with pending := rest }) ∧
  ∀ s : State, s.pending = [] → step s = .next s

/-- R184, R192, R193: a request's packet is decoded to that request, and every packet body of at most 262 bytes is
decoded to a well-formed request whose packet it is. -/
def Obligations.RequestPacketsRoundTrip : Prop :=
  (∀ (i : Instr) (lk : Link) (body : List Byte), i.wellFormed = true → requestLink i = some lk →
    requestBody i = some body → decodeRequest lk body (requestOverlong i) = i) ∧
  ∀ (lk : Link) (body : List Byte) (overlong : Bool), body.length ≤ 262 →
    (decodeRequest lk body overlong).wellFormed = true ∧
      requestBody (decodeRequest lk body overlong) = some body ∧
      requestLink (decodeRequest lk body overlong) = some lk ∧
      requestOverlong (decodeRequest lk body overlong) = overlong

/-- Every step keeps take memory in its canonical form: addresses strictly rising, inside the 4 096 pages, and no byte
listed that reads as an unlisted one. -/
def Obligations.StepKeepsTakeMemoryForm : Prop :=
  ∀ s t : State, Memory.wf s.mem = true → step s = .next t → Memory.wf t.mem = true

/-- R2 and section 1.2: every step keeps the timeline record one that its state allows; in RUNNING and PAUSED the cycle
is a multiple of its beats between 250 and 30 000 and the position lies below it. -/
def Obligations.StepKeepsTimelineLegal : Prop :=
  ∀ s t : State, s.cyc.legal → step s = .next t → t.cyc.legal

/-- R51: every step keeps every one of the 4 096 pages in exactly one place: the free list, the bounce reservation, or
one slot of the page map of one layer record. R29, R31, R64: every step keeps the layer store in order: stacks and redo
lists of at most 12 ids, each record that is not FREE in exactly one list of its track or FORMING in none, park stamps
distinct and below the park counter, and the pinned-page total the sum over the pinned layers and at most 3 072. The
store's order rests on each RECORDING layer having its open pass and each FORMING one its bounce, which is kept with
it. -/
def Obligations.StepKeepsPagesPlaced : Prop :=
  (∀ s t : State, s.pagesPlaced → step s = .next t → t.pagesPlaced) ∧
  ∀ s t : State, s.storeLegal → step s = .next t → t.storeLegal

/-- R100, R110, R147, R172: every step keeps the action queue within 16 entries, each request queue within 4 packets,
each event queue within 16 events, the played-voice set within 32 entries and the refresh charge within 4. -/
def Obligations.StepKeepsQueuesBounded : Prop :=
  ∀ s t : State, s.bounded → step s = .next t → t.bounded

/-- R185, R176: every step keeps, for every station, the replies waiting and owed at 21 or fewer and the reception
replies at 3 or fewer (with at most one bounce a station), so that a reply queue of 24 never overflows. -/
def Obligations.StepKeepsReplyRoom : Prop :=
  ∀ s t : State, s.replyRoom → step s = .next t → t.replyRoom

/-- The state right after power-on reset meets the six invariants. -/
def Obligations.ResetMeetsTheInvariants : Prop :=
  Memory.wf State.reset.mem = true ∧ State.reset.cyc.legal ∧ State.reset.pagesPlaced ∧ State.reset.storeLegal ∧
    State.reset.bounded ∧ State.reset.replyRoom

/-- R1, R188: no command but BLOCK_BOUNDARY, POWER_ON_RESET, a brownout's SUPPLY_READING and the BROWNOUT_END that ends
one changes the hub block number; HUB_RESET leaves it counting. -/
def Obligations.BlockNumberMovesOnlyAtTheBoundary : Prop :=
  ∀ (c : Instr) (s t : State), exec c s = .next t → (∀ order, c ≠ .blockBoundary order) → c ≠ .powerOnReset →
    (∀ v x o, c = .supplyReading v x o → 3300 ≤ v) → (∀ v, c = .brownoutEnd v → v < 3300) →
    t.cyc.block = s.cyc.block

/-! ## The block boundary -/

/-- R1, R161, R18, R149, R111: BLOCK_BOUNDARY ends the period: N advances by one and wraps, the measurement phase
advances from 99 to 0, the run-out positions go, and the mix engine and the controller hold the supply watch's states.
The two flags of a reading that was or was not made are the model's own (log 24).
R70, R72: at the boundary every input's resolved block is the one filed under the stamp N mod 256, which leaves the slot
queue, or silence, which counts a dropout where the link is in RUN; the resolved block joins the ring and the oldest of
256 leaves it. With nothing else due, INPUT_DROPOUT with the input and its count goes to the stations that hear it where
no block was filed, the link is in RUN and the input was PRESENT, and to none otherwise. -/
def Obligations.BoundaryEndsThePeriod : Prop :=
  (∀ (order : List Input) (s : State), s.stopped = false →
    ∃ t, exec (.blockBoundary order) s = .next t ∧
      t.cyc.block = (s.cyc.block + 1) % 4294967296 ∧
      t.smn = { s.smn with phase := if s.smn.phase = 99 then 0 else s.smn.phase + 1, readDone := false,
                           readOwed := s.smn.phase = 99 && !s.smn.readDone } ∧
      t.cyc.runOut = none ∧ t.mxe.supply = s.smn.supply ∧ t.mxe.thermal = s.smn.thermal ∧
      t.tmc.refresh = (match s.smn.thermal with
        | .cool => 2
        | .hot => 4
        | .scorch => 4) ∧
      t.stopped = false ∧ t.freeIndex = s.freeIndex ∧ t.pending = s.pending ∧ t.rqu.pointer = s.rqu.pointer) ∧
  (∀ (order : List Input) (s : State), s.stopped = false →
    ∃ t, exec (.blockBoundary order) s = .next t ∧ ∀ i : Input,
      let r := s.input i
      let stamp := s.cyc.block % 256
      let filed : Bool := r.slots.any fun c => c.1 = stamp
      let resolved : Block := ((r.slots.find? fun c => c.1 = stamp).map (·.2)).getD silence
      (t.input i).slots = (r.slots.filter fun c => c.1 ≠ stamp) ∧
      (t.input i).present = filed ∧
      (t.input i).dropouts =
        (if !filed && s.linkRuns i then min (r.dropouts + 1) 4294967295 else r.dropouts) ∧
      (t.input i).ring = resolved :: r.ring.take 255 ∧
      (s.settled = true → s.triggerOverdue = false → s.strokeDue = false → ∀ j : Link,
        (filed = false → s.linkRuns i = true → r.present = true → s.hears j .inputDropout 4 = true →
          ∃ e ∈ (t.link j).events, e.info = s.info ∧
            e.body = .inputDropout i (min (r.dropouts + 1) 4294967295)) ∧
        (filed = true ∨ s.linkRuns i = false ∨ r.present = false →
          ∀ e ∈ (t.link j).events, e ∉ (s.link j).events → ∀ n, e.body ≠ .inputDropout i n)))

/-- R15: at a boundary with nothing else due, a RUNNING position advances, and at L - 1 it wraps and C advances modulo
53 760; in UNSET, COUNTING and PAUSED, p and C stay, and so they do in MEASURING where the passes write on. R16, R18:
the last thing a boundary does is to emit the marks of the new block: in RUNNING at a beat boundary its beat mark, and
at a cycle boundary the cycle mark after it; a block of which a stop or a hold is known, by a stop due in it or by a
trigger of an earlier block waiting in ACTIVE (R152), sends none, which the model notes (withheld, log 43). -/
def Obligations.BoundaryAdvancesThePosition : Prop :=
  (∀ (order : List Input) (s : State), s.stopped = false → s.settled = true → s.triggerOverdue = false →
    s.cyc.state ≠ .measuring →
    ∃ t, exec (.blockBoundary order) s = .next t ∧ t.cyc.state = s.cyc.state ∧ t.cyc.len = s.cyc.len ∧
      t.cyc.beats = s.cyc.beats ∧
      (s.cyc.state ≠ .running → t.cyc.pos = s.cyc.pos ∧ t.cyc.count = s.cyc.count) ∧
      ∀ p l, s.cyc.state = .running → s.cyc.pos = some p → s.cyc.len = some l →
        (p + 1 < l → t.cyc.pos = some (p + 1) ∧ t.cyc.count = s.cyc.count) ∧
        (p + 1 = l → t.cyc.pos = some 0 ∧ t.cyc.count = (s.cyc.count + 1) % 53760)) ∧
  (∀ (order : List Input) (s : State), s.stopped = false → s.settled = true → s.triggerOverdue = false →
    s.cyc.state = .measuring → s.bne.active = none →
    (∀ i p, s.pass i = some p → p.cut = none ∧
      ∃ l, s.layer p.layer = some l ∧ (slotPage l.map (p.writePos / 256)).isSome = true) →
    ∃ t, exec (.blockBoundary order) s = .next t ∧
      t.cyc = { s.cyc with block := (s.cyc.block + 1) % 4294967296, runOut := none, withheld := false,
                           last := s.info }) ∧
  ∀ (order : List Input) (s : State), s.stopped = false →
    ∃ t v, exec (.blockBoundary order) s = .next t ∧ v.cyc.withheld = false ∧
      t.cyc = { v.cyc with withheld := t.cyc.withheld } ∧ t.aqu = v.aqu ∧ t.tmc = v.tmc ∧
      (let leaves : Bool := (v.aqu.queue.any fun e => e.action = .transportStop && e.due = v.cyc.block) ||
        (v.tmc.mem = .active && v.tmc.trigger.any fun x => x.2 ≠ v.cyc.block)
      (v.cyc.state ≠ .running → t = v) ∧
      ∀ p l b, v.cyc.state = .running → v.cyc.pos = some p → v.cyc.len = some l → v.cyc.beats = some b →
        (p % (l / b) ≠ 0 → t = v) ∧
        (p % (l / b) = 0 → leaves = true → t = v.withCyc { v.cyc with withheld := true }) ∧
        (p % (l / b) = 0 → leaves = false → p ≠ 0 → t = emit (.beatMark (p / (l / b))) v) ∧
        (p = 0 → leaves = false → t = emit (.cycleMark l b) (emit (.beatMark 0) v)))

/-- R81, R80: at a boundary at which one WRITING pass is open, its backfill copies the oldest blocks not yet copied, up
to 8, from the ring, its resolved block is stored at its write position, the written count and the write position
advance, and, where no backfill is left, no other byte of take memory changes. R81, R54: where the slot of the write
position is absent it takes the free list's head page. R65: where that leaves fewer than 256 pages free the low flag
goes on, and where it leaves 320 or more it goes off, with POOL_LOW to the stations that hear it. R81, R54, R89, R88:
where there is neither a page nor a victim, a FIXED pass is cut STARVED in that block, which is not written: the pass
ends, its layer is LIVE with the count it had, and PASS_ENDED goes to the stations that hear it. -/
def Obligations.BoundaryWritesTheResolvedBlock : Prop :=
  (∀ (order : List Input) (s : State) (i : Input) (p : Pass) (l : Layer) (pg : Page), s.stopped = false →
    s.settled = true → s.triggerOverdue = false → s.bne.active = none → s.pass i = some p →
    (∀ j, j ≠ i → s.pass j = none) → p.state = .writing → p.cut = none →
    s.layer p.layer = some l → slotPage l.map (p.writePos / 256) = some pg →
    let len := l.length.getD 240000
    let b := resolvedBlock s i
    let copied : List Host.Cell := (List.range (min 8 p.backfill)).foldl (fun m j =>
      let c := p.snap - p.backfill + j
      let q := (p.start + c) % len
      match slotPage l.map (q / 256) with
      | some x => writeBlock m x (q % 256) ((s.input i).ring.getD (p.snap - c + c / 8 - 1) silence)
      | none => m) s.mem
    ∃ t, exec (.blockBoundary order) s = .next t ∧
      t.mem = writeBlock copied pg (p.writePos % 256) b ∧
      (p.backfill = 0 → ∀ a, a < blockAddr pg (p.writePos % 256) ∨ blockAddr pg (p.writePos % 256) + 144 ≤ a →
        readByte t.mem a = readByte s.mem a) ∧
      t.layer p.layer = some { l with
        written := if p.kind = .fixed then (p.writePos + len - p.start) % len + 1 else p.writePos + 1 } ∧
      t.pass i = some { p with
        writePos := if p.kind = .fixed then (p.writePos + 1) % len else p.writePos + 1,
        backfill := p.backfill - 8 } ∧
      t.pgp = s.pgp ∧ (∀ u, t.track u = s.track u) ∧ ∀ id, id ≠ p.layer → t.layer id = s.layer id) ∧
  (∀ (order : List Input) (s : State) (i : Input) (p : Pass) (l : Layer), s.stopped = false →
    s.settled = true → s.triggerOverdue = false → s.bne.active = none → s.pass i = some p →
    (∀ j, j ≠ i → s.pass j = none) → p.state = .writing → p.cut = none → p.backfill = 0 →
    s.layer p.layer = some l → slotPage l.map (p.writePos / 256) = none →
    (∀ pg rest, s.pgp.free = pg :: rest →
      let len := l.length.getD 240000
      let low : Bool := if s.pgp.low then rest.length < 320 else rest.length < 256
      ∃ t, exec (.blockBoundary order) s = .next t ∧
        t.mem = writeBlock s.mem pg (p.writePos % 256) (resolvedBlock s i) ∧
        t.layer p.layer = some { l with
          written := if p.kind = .fixed then (p.writePos + len - p.start) % len + 1 else p.writePos + 1,
          map := putSlot (p.writePos / 256) pg l.map } ∧
        t.pass i = some { p with
          writePos := if p.kind = .fixed then (p.writePos + 1) % len else p.writePos + 1 } ∧
        t.pgp = { s.pgp with free := rest, low := low, lowest := min s.pgp.lowest rest.length } ∧
        (∀ u, t.track u = s.track u) ∧ (∀ id, id ≠ p.layer → t.layer id = s.layer id) ∧
        (low ≠ s.pgp.low → ∀ j, s.hears j .poolLow 5 = true → ∃ e ∈ (t.link j).events, e.info = s.info ∧
          e.body = .poolLow low rest.length)) ∧
    (s.pgp.free = [] → s.victim = none → p.kind = .fixed → 1 ≤ l.written →
      ∃ t, exec (.blockBoundary order) s = .next t ∧ t.pass i = none ∧
        t.layer p.layer = some { l with state := .live } ∧
        t.pgp = { s.pgp with starved := min (s.pgp.starved + 1) 4294967295 } ∧
        (∀ u, t.track u = s.track u) ∧ (∀ id, id ≠ p.layer → t.layer id = s.layer id) ∧
        ∀ j, s.hears j .passEnded 4 = true → ∃ e ∈ (t.link j).events, e.info = s.info ∧
          e.body = passEndedBody i p (some l) s.cyc.len .cut (some .starved) l.written))

/-- R114, R119, R129, R148: outside RETAINING the account of the block sums to 40, its voice charge is the voices the
mix read, and those never exceed the cap, which never exceeds 32. Where nothing but the mix is to be made, it is this.
R114, R115: the cap is the least of what the supply state sets (0 in hold after the hold-entry block) and 40 less the
writes and the refresh charge. R112, R113, R116, R119: the candidates are the layers that meet the six conditions, and
the played-voice set becomes the first of them by rank, as many as the cap admits, with their levels, routes and ranks.
R117, R118: the entries of the old set whose layers are not admitted and whose pages exist are read in the slots that
are left, and those beyond them stop hard. R120: the shed flag says that fewer were admitted than there are candidates,
the shed blocks are counted, and a change is sent as VOICE_SHED. -/
def Obligations.BoundaryClosesTheAccount : Prop :=
  (∀ (order : List Input) (s t : State), s.bounded → exec (.blockBoundary order) s = .next t → s.stopped = false →
    t.mxe.lastMix.read ≤ t.mxe.lastMix.cap ∧ t.mxe.lastMix.cap ≤ 32 ∧
      (t.tmc.mem ≠ .retaining →
        t.tmc.account.writes + t.tmc.account.refresh + t.tmc.account.voices + t.tmc.account.spare = 40 ∧
          t.tmc.account.writes ≤ 4 ∧ t.tmc.account.refresh = s.tmc.refresh ∧
          t.tmc.account.voices = t.mxe.lastMix.read)) ∧
  ∀ (order : List Input) (s : State), s.mixesAlone →
    let supplied : Nat :=
      if s.tmc.mem = .active ∨ (s.tmc.mem = .draining ∧ s.tmc.holdEntry = some s.cyc.block) then
        (if s.mxe.supply = .normal then 32 else 16) else 0
    let writes := (allInputs.filter fun i => (s.input i).endedHere).length
    let cap := min supplied (40 - writes - (if s.mxe.thermal = .cool then 2 else 4))
    let candidates := (allLayers.filter s.sounds).length
    let admitted := min candidates cap
    ∃ t, exec (.blockBoundary order) s = .next t ∧
      t.mxe.lastMix.cap = cap ∧ t.mxe.lastMix.candidates = candidates ∧ t.mxe.lastMix.admitted = admitted ∧
      t.mxe.played.length = admitted ∧
      (∀ k e, t.mxe.played[k]? = some e → s.sounds e.layer = true ∧ s.entryOf e.layer k = some e) ∧
      t.mxe.played.Pairwise Played.ranksOver ∧
      (∀ id x, s.sounds id = true → s.entryOf id 0 = some x → (∀ e ∈ t.mxe.played, e.layer ≠ id) →
        ∀ e ∈ t.mxe.played, e.ranksOver x) ∧
      (let leavers := (s.mxe.played.filter fun e =>
          !(t.mxe.played.any fun x => x.layer = e.layer) && s.lingers e).length
       t.mxe.lastMix.leaving = min leavers (cap - admitted) ∧
       t.mxe.lastMix.read = admitted + min leavers (cap - admitted) ∧
       t.mxe.hardStops = min (s.mxe.hardStops + (leavers - (cap - admitted))) 4294967295) ∧
      (t.mxe.shed = true ↔ admitted < candidates) ∧
      t.mxe.shedBlocks =
        (if admitted < candidates then min (s.mxe.shedBlocks + 1) 4294967295 else s.mxe.shedBlocks) ∧
      (t.mxe.shed ≠ s.mxe.shed → ∀ j, s.hears j .voiceShed 4 = true →
        ∃ e ∈ (t.link j).events, e.info = s.info ∧ e.body = .voiceShed t.mxe.shed candidates cap admitted)

/-- R127, R128, R181, R124: at the boundary each link in RUN whose station's return setting names a bus holds a return
block of that bus in its return slot, stamped N mod 256, of 48 samples within range, a block still in the slot being
skipped and counted; every other return slot stays. R121, R123, R124, R73: with the timeline at rest, no pass but cut
ones and no voice sounding before, a return block carries, frame by frame, the four monitor terms floor(x m / 256)
under the bus level, floored and saturated, an input taking its take levels while a pass of it is open or has ended in
the block; R125: a bus with a frame out of range counts a clip block, and sends BUS_CLIP where its last one is absent
or 100 blocks back. R116, R117, R121, R122, R130: where nothing but the mix is to be made, a return block carries
beside the monitor terms the voice terms floor(s gl gt / 65536) of the admitted voices that feed the bus, faded in
where they did not sound before and are not at the head of a partial layer, and of the first leaving voices by rank, at
the levels and route recorded and faded out. -/
def Obligations.BoundaryFillsTheReturnSlots : Prop :=
  (∀ (order : List Input) (s : State), s.stopped = false →
    ∃ t, exec (.blockBoundary order) s = .next t ∧ ∀ lk : Link,
      (s.linkRuns lk = false ∨ (s.station lk).ret = .none →
        (t.link lk).ret = (s.link lk).ret ∧ (t.link lk).station = (s.link lk).station) ∧
      ∀ bus, s.linkRuns lk = true → (s.station lk).ret = (match bus with
          | .a => .a
          | .b => .b) →
        (∃ x : Block, (t.link lk).ret = some ⟨bus, s.cyc.block % 256, x⟩ ∧ x.length = 48 ∧
          ∀ v ∈ x, -8388608 ≤ v ∧ v ≤ 8388607) ∧
        (t.link lk).station = { (s.link lk).station with
          skips := if (s.link lk).ret.isSome then min ((s.link lk).station.skips + 1) 4294967295
                   else (s.link lk).station.skips }) ∧
  (∀ (order : List Input) (s : State) (bus : Bus), s.stopped = false → s.settled = true → s.triggerOverdue = false →
    s.cyc.state = .paused ∨ s.cyc.state = .unset → s.mxe.played = [] →
    (∀ i p, s.pass i = some p → p.cut ≠ none) →
    let level (i : Input) : Nat :=
      let r := s.input i
      if (s.pass i).isSome || r.endedHere then (if bus = .a then r.takeA else r.takeB)
      else if bus = .a then r.nomA else r.nomB
    let term (i : Input) (f : Nat) : Int := (resolvedBlock s i).getD f 0 * level i / 256
    let out (f : Nat) : Int :=
      (term 0 f + term 1 f + term 2 f + term 3 f) * (if bus = .a then s.mxe.levelA else s.mxe.levelB) / 256
    let clipped := ((List.range 48).filter fun f => out f < -8388608 || 8388607 < out f).length
    let count (m : Mxe) : Nat := if bus = .a then m.clipA else m.clipB
    let last (m : Mxe) : Option Nat := if bus = .a then m.lastClipA else m.lastClipB
    let sends : Bool := 0 < clipped && (last s.mxe).all fun n => 100 ≤ diff32 s.cyc.block n
    ∃ t, exec (.blockBoundary order) s = .next t ∧
      (∀ lk, s.linkRuns lk = true → (s.station lk).ret = (match bus with
          | .a => .a
          | .b => .b) →
        ∃ x, (t.link lk).ret = some ⟨bus, s.cyc.block % 256, x⟩ ∧
          ∀ f : Nat, f < 48 → x.getD f 0 = max (-8388608) (min 8388607 (out f))) ∧
      count t.mxe = (if clipped = 0 then count s.mxe else min 65535 (count s.mxe + 1)) ∧
      last t.mxe = (if sends then some s.cyc.block else last s.mxe) ∧
      (sends = true → s.mixesAlone → ∀ j, s.hears j .busClip 6 = true →
        ∃ e ∈ (t.link j).events, e.info = s.info ∧ e.body = .busClip bus (count t.mxe) clipped
          ((List.range 48).foldl (fun m f => max m (out f).natAbs) 0))) ∧
  ∀ (order : List Input) (s : State) (lk : Link) (bus : Bus), s.mixesAlone →
    s.mxe.played.Pairwise (fun a b => a.rank ≤ b.rank) → s.linkRuns lk = true →
    (s.station lk).ret = (match bus with
      | .a => .a
      | .b => .b) →
    let feeds (e : Played) : Bool := e.route = .both || e.route = (match bus with
      | .a => .a
      | .b => .b)
    let voice (e : Played) (q f : Nat) : Int :=
      (((s.layer e.layer).map fun l => (storedBlock s l.map q).getD f 0).getD 0) * e.layerLevel * e.trackLevel / 65536
    let entering (f : Nat) (e : Played) : Int :=
      match s.trackPos e.track with
      | none => 0
      | some q =>
        if (s.mxe.played.any fun x => x.layer = e.layer && x.serial = e.serial) ||
            ((s.layer e.layer).any fun l => q = l.start && l.written < l.length.getD 240000) then voice e q f
        else voice e q f * (f + 1) / 48
    let fading (f : Nat) (e : Played) : Int :=
      match (match s.cyc.runOut with
        | some v => v[e.track]
        | none => s.trackPos e.track) with
      | none => 0
      | some q => voice e q f * (47 - f) / 48
    let monitor (f : Nat) (i : Input) : Int :=
      let r := s.input i
      (resolvedBlock s i).getD f 0 *
        (match bus, r.endedHere with
         | .a, true => r.takeA
         | .b, true => r.takeB
         | .a, false => r.nomA
         | .b, false => r.nomB) / 256
    ∃ t x, exec (.blockBoundary order) s = .next t ∧ (t.link lk).ret = some ⟨bus, s.cyc.block % 256, x⟩ ∧
      (let leavers := (s.mxe.played.filter fun e =>
          !(t.mxe.played.any fun y => y.layer = e.layer) && s.lingers e).take t.mxe.lastMix.leaving
      ∀ f : Nat, f < 48 → x.getD f 0 = max (-8388608) (min 8388607
        ((((t.mxe.played.filter feeds).map (entering f)).sum + ((leavers.filter feeds).map (fading f)).sum +
          (allInputs.map (monitor f)).sum) * (if bus = .a then s.mxe.levelA else s.mxe.levelB) / 256)))

/-! ## Events -/

/-- R189, R190, R191: an event that is not urgent joins the event queue of a station in RUN, subscribed to its kind and
not quiet, with the missed flag, or is dropped and counted where 16 wait; a quiet station notes its kind in a set
without repeats (listed ascending by code, log 61); every other station is left alone. An urgent event always enters
the queue of a station in RUN, at its tail: the quiet ends, with one QUIET_SUMMARY of the pending kinds ahead of the
event where the station subscribes to that kind, the queue stays within 16 events, and a full queue loses one event,
which is counted and marked: the newest that is not urgent, else the newest ROUTE_FAIL, else the newest. -/
def Obligations.EventsReachTheStations : Prop :=
  (∀ (b : EventBody) (s : State) (lk : Link), b.urgent = false → b.excludes lk = false →
    let u := emit b s
    let st := s.station lk
    (s.linkRuns lk = false ∨ st.subs.contains b.kind = false → u.link lk = s.link lk ∧ u.station lk = st) ∧
    (s.linkRuns lk = true → st.subs.contains b.kind = true → st.quiet = true →
      u.link lk = s.link lk ∧ u.station lk = { st with pendingKinds := addKind b.kind st.pendingKinds }) ∧
    (s.linkRuns lk = true → st.subs.contains b.kind = true → st.quiet = false → (s.link lk).events.length < 16 →
      u.link lk = { s.link lk with events := (s.link lk).events ++ [⟨b, s.info, st.missed, false⟩] } ∧
      u.station lk = { st with missed := false }) ∧
    (s.linkRuns lk = true → st.subs.contains b.kind = true → st.quiet = false → 16 ≤ (s.link lk).events.length →
      u.link lk = s.link lk ∧
      u.station lk = { st with missed := true, dropped := min (st.dropped + 1) 4294967295 })) ∧
  (∀ (b : EventBody) (s : State) (lk : Link), b.urgent = true → b.excludes lk = false → s.linkRuns lk = true →
    let u := emit b s
    (∃ e, (u.link lk).events.getLast? = some e ∧ e.body = b ∧ e.urgent = true) ∧
    (u.station lk).quiet = false ∧ (u.station lk).missed = false ∧
    ((s.link lk).events.length ≤ 16 → (u.link lk).events.length ≤ 16) ∧
    ((s.station lk).quiet = false → (s.link lk).events.length < 16 →
      (u.link lk).events = (s.link lk).events ++ [⟨b, s.info, (s.station lk).missed, true⟩]) ∧
    ((s.station lk).quiet = false → 16 ≤ (s.link lk).events.length →
      (u.link lk).events = evict (s.link lk).events ++ [⟨b, s.info, true, true⟩] ∧
      (u.station lk).dropped = min ((s.station lk).dropped + 1) 4294967295) ∧
    ((s.station lk).quiet = true → (u.station lk).pendingKinds = [] ∧
      ((s.station lk).pendingKinds = [] ∨ (s.station lk).subs.contains .quietSummary = false →
        (s.link lk).events.length < 16 →
        (u.link lk).events = (s.link lk).events ++ [⟨b, s.info, (s.station lk).missed, true⟩]) ∧
      ((s.station lk).pendingKinds ≠ [] → (s.station lk).subs.contains .quietSummary = true →
        (s.link lk).events.length < 15 →
        (u.link lk).events = (s.link lk).events ++
          [⟨.quietSummary (s.station lk).pendingKinds, s.info, (s.station lk).missed, false⟩,
           ⟨b, s.info, false, true⟩]))) ∧
  (∀ (k : EventKind) (ks : List EventKind), (∀ x, x ∈ addKind k ks ↔ x = k ∨ x ∈ ks) ∧
    ((addKind k ks).map EventKind.code).Pairwise (· < ·)) ∧
  ∀ (front back : List Event) (e : Event),
    (e.urgent = false → (∀ x ∈ back, x.urgent = true) → evict (front ++ e :: back) = front ++ back) ∧
    ((∀ x ∈ front ++ e :: back, x.urgent = true) →
      (e.body.kind = .routeFail → (∀ x ∈ back, x.body.kind ≠ .routeFail) →
        evict (front ++ e :: back) = front ++ back) ∧
      ((∀ x ∈ front ++ e :: back, x.body.kind ≠ .routeFail) → back = [] →
        evict (front ++ e :: back) = front))

/-! ## Serving a request -/

/-- R183, R185, R191: the request unit takes from the first eligible link after the one last served; a request that is
taken leaves the head of its link's request queue, the round-robin pointer names its link, its station's quiet ends with
one QUIET_SUMMARY of the pending kinds where the station subscribes to it, and its first reply joins the tail of the
reply queue; nothing else changes. -/
def Obligations.RequestIsTakenAndAnswered : Prop :=
  (∀ (s : State) (lk : Link), s.selected = some lk ↔ s.eligible lk = true ∧
    ∀ j : Link, (j.val + 3 - s.rqu.pointer.val) % 4 < (lk.val + 3 - s.rqu.pointer.val) % 4 → s.eligible j = false) ∧
  ∀ (s : State) (lk : Link) (code tag : Byte) (rc : ReplyCode) (payload : Payload), s.linkRuns lk = true →
    let u := s.served lk code tag rc id payload
    let st := s.station lk
    u.inner = s.inner ∧ u.rqu.pointer = lk ∧ u.slk.broadcasts = s.slk.broadcasts ∧ u.slk.nextGroup = s.slk.nextGroup ∧
    (∀ j, j ≠ lk → u.link j = s.link j ∧ u.station j = s.station j) ∧
    (∃ es, u.link lk = { s.link lk with
        requests := (s.link lk).requests.tail, events := es,
        replies := (s.link lk).replies ++
          [⟨code, some tag, false, rc, s.cyc.block % 256, payload, false⟩] } ∧
      (st.quiet = false → es = (s.link lk).events ∧ u.station lk = st) ∧
      (st.quiet = true → st.pendingKinds = [] ∨ st.subs.contains .quietSummary = false →
        es = (s.link lk).events ∧ u.station lk = { st with quiet := false, pendingKinds := [] }) ∧
      (st.quiet = true → st.pendingKinds ≠ [] → st.subs.contains .quietSummary = true →
        (s.link lk).events.length < 16 →
        es = (s.link lk).events ++ [⟨.quietSummary st.pendingKinds, s.info, st.missed, false⟩] ∧
        u.station lk = { st with quiet := false, pendingKinds := [], missed := false }))

/-- R184, R3, R37, R99, R192: a request with an argument its owner refuses is answered BAD_ARG, and one with accepted
arguments that the catalogue marks HELD is answered HELD in hold; a request packet of fewer than 4 bytes or grown beyond
264 is answered MALFORMED, an unknown code UNKNOWN, a wrong length MALFORMED, with code and tag as far as the packet
holds them. None of them changes anything else. -/
def Obligations.RefusedRequestsChangeNothing : Prop :=
  (∀ (c : Instr) (s : State) (lk : Link) (code tag : Byte) (args : List Byte), s.ready lk c = true →
    requestLink c = some lk → requestBody c = some (code :: tag :: args) →
    (argsAccepted c = false → exec c s = .next (s.served lk code tag .badArg id)) ∧
    (argsAccepted c = true → refusedInHold c = true → s.inHold = true →
      exec c s = .next (s.served lk code tag .held id))) ∧
  (∀ (s : State) (lk : Link) (body : List Byte) (overlong : Bool),
    s.ready lk (.unknownRequest lk body overlong) = true →
    let answered (rc : ReplyCode) : State :=
      pushReply lk ⟨body.getD 0 0, body[1]?, false, rc, s.cyc.block % 256, .none, false⟩ (taken lk true s)
    (overlong = true ∨ body.length < 2 →
      exec (.unknownRequest lk body overlong) s = .next (answered .malformed)) ∧
    ∀ code tag args, body = code :: tag :: args → overlong = false →
      (catalogueArgs code.toNat = none →
        exec (.unknownRequest lk body overlong) s = .next (answered .unknown)) ∧
      ∀ n, catalogueArgs code.toNat = some n →
        exec (.unknownRequest lk body overlong) s = .next (answered .malformed))

/-! ## The timeline -/

/-- R4: the rounded cycle is B floor((2 m + B) / (2 B)) clamped into Lmin(B) to Lmax(B); it is a multiple of B between
250 and 30 000, no such multiple lies nearer to m, and a tie goes to the larger. -/
def Obligations.CycleIsTheNearestMultiple : Prop :=
  ∀ m b : Nat, 1 ≤ b → b ≤ 16 →
    let l := roundCycle m b
    let rounded := b * ((2 * m + b) / (2 * b))
    l = (if rounded < (250 + b - 1) / b * b then (250 + b - 1) / b * b
      else if 30000 / b * b < rounded then 30000 / b * b else rounded) ∧
    l % b = 0 ∧ 250 ≤ l ∧ l ≤ 30000 ∧
    ∀ k, 250 ≤ k * b → k * b ≤ 30000 →
      ((l : Int) - m).natAbs ≤ ((k * b : Int) - m).natAbs ∧ (l < k * b → ((l : Int) - m).natAbs < ((k * b : Int) - m).natAbs)

/-- R5, R16: CYCLE_SET in UNSET clamps the length, rounds it by R4, and starts the timeline RUNNING at p = 0 and C = 0
with the beat mark before the cycle mark (R18: they are withheld in a block of which a hold is known, log 43); in every
other state it is refused WRONG_STATE. -/
def Obligations.CycleSetStartsTheTimeline : Prop :=
  ∀ (s : State) (lk : Link) (tag : Byte) (length : Word16) (beats : Byte) (b : Nat),
    s.ready lk (.cycleSet lk tag length beats) = true → s.inHold = false → beatsArg beats = some b →
    (s.cyc.state = .unset →
      exec (.cycleSet lk tag length beats) s = .next (s.served lk 0x01 tag .ok fun x =>
        let l := roundCycle (clampNat 250 30000 length.toNat) b
        let y := x.withCyc
          { x.cyc with state := .running, len := some l, beats := some b, setting := b, pos := some 0, count := 0 }
        if s.leavesRunning then y.withCyc { y.cyc with withheld := true }
        else emit (.cycleMark l b) (emit (.beatMark 0) y))) ∧
    (s.cyc.state ≠ .unset → exec (.cycleSet lk tag length beats) s = .next (s.served lk 0x01 tag .wrongState id))

/-- R6, R7, R8: TAP begins a count-in, takes no second tap of one block, appends an interval of 1 to 2 000 blocks,
restarts after a longer one, and with the third interval fixes the cycle and the scheduled start. -/
def Obligations.TapCountsIn : Prop :=
  ∀ (s : State) (lk : Link) (tag beats : Byte) (b : Option Nat), s.ready lk (.tap lk tag beats) = true →
    s.inHold = false → tapBeatsArg beats = some b →
    let setting := b.getD s.cyc.setting
    let answered (c : Cyc) : State := s.served lk 0x02 tag .ok fun x => x.withCyc c
    let result := exec (.tap lk tag beats) s
    (s.cyc.state = .unset → result = .next (answered
      { s.cyc with state := .counting, setting := setting, taps := [], lastTap := some s.cyc.block })) ∧
    (s.cyc.state ≠ .unset → s.cyc.state ≠ .counting ∨ s.cyc.schedStart ≠ none →
      result = .next (s.served lk 0x02 tag .wrongState id)) ∧
    ∀ n0, s.cyc.state = .counting → s.cyc.schedStart = none → s.cyc.lastTap = some n0 →
      let gap := diff32 s.cyc.block n0
      (gap = 0 → result = .next (answered { s.cyc with setting := setting })) ∧
      (2000 < gap → result = .next (answered
        { s.cyc with setting := setting, taps := [], lastTap := some s.cyc.block })) ∧
      (1 ≤ gap → gap ≤ 2000 → s.cyc.taps.length < 2 → result = .next (answered
        { s.cyc with setting := setting, taps := s.cyc.taps ++ [gap], lastTap := some s.cyc.block })) ∧
      (1 ≤ gap → gap ≤ 2000 → 2 ≤ s.cyc.taps.length →
        let beat := clampNat (ceilDiv 250 setting) (30000 / setting) ((2 * (s.cyc.taps.sum + gap) + 3) / 6)
        result = .next (answered
          { s.cyc with setting := setting, taps := s.cyc.taps ++ [gap], lastTap := none, beats := some setting,
                       len := some (beat * setting), schedStart := some ((s.cyc.block + beat) % 4294967296) }))

/-- R10, R19, R95: TRANSPORT_STOP in COUNTING returns the timeline to UNSET whatever its mode, and in RUNNING with mode
NOW makes it PAUSED at p = 0 with C kept, gives the run-out positions and cuts every open pass with cause STOP; both
cancel the action queue before the reply DONE (that order is read from R19's list, log 22). In the other states it is
refused WRONG_STATE. R20, R16: TRANSPORT_START in PAUSED makes the timeline RUNNING at p = 0 and C = 0, sets the anchor
of every track that is not EMPTY to 0 and sends the marks (R18: they are withheld in a block of which a stop or a hold
is known, log 43), whatever mode it carries; in the other states it is refused WRONG_STATE. Where a block sees a stop,
a start and a second stop, that the second gives the run-out positions anew is log 44. -/
def Obligations.TransportStopsAndRestarts : Prop :=
  (∀ (s : State) (lk : Link) (tag quantize : Byte) (mode : Quantize),
    s.ready lk (.transportStop lk tag quantize) = true → s.inHold = false → quantizeArg quantize = some mode →
    s.pendingSame lk .transportStop = none →
    (s.cyc.state = .counting →
      exec (.transportStop lk tag quantize) s = .next (s.served lk 0x03 tag .done fun x =>
        cancelQueue (x.withCyc
          { x.cyc with state := .unset, len := none, beats := none, pos := none, taps := [], lastTap := none,
                       schedStart := none, measureStart := none, withheld := false }))) ∧
    (s.cyc.state = .running → mode = .now →
      exec (.transportStop lk tag quantize) s = .next (s.served lk 0x03 tag .done fun x =>
        cancelQueue (cutAll .stop true (x.withCyc
          { x.cyc with state := .paused, pos := some 0, runOut := some s.loopPositions, withheld := false })))) ∧
    (s.cyc.state ≠ .counting → s.cyc.state ≠ .running →
      exec (.transportStop lk tag quantize) s = .next (s.served lk 0x03 tag .wrongState id))) ∧
  ((∀ (s : State) (lk : Link) (tag quantize : Byte) (mode : Quantize) (l b : Nat),
    s.ready lk (.transportStart lk tag quantize) = true → s.inHold = false → quantizeArg quantize = some mode →
    (s.cyc.state = .paused → s.cyc.len = some l → s.cyc.beats = some b →
      exec (.transportStart lk tag quantize) s = .next (s.served lk 0x04 tag .ok fun x =>
        if s.leavesRunning then (restart x).withCyc { (restart x).cyc with withheld := true }
        else emit (.cycleMark l b) (emit (.beatMark 0) (restart x)))) ∧
    (s.cyc.state ≠ .paused →
      exec (.transportStart lk tag quantize) s = .next (s.served lk 0x04 tag .wrongState id))) ∧
  ∀ s : State,
    (restart s).cyc = { s.cyc with state := .running, pos := some 0, count := 0 } ∧
    (∀ t, (restart s).track t =
      if (s.track t).state = .empty then s.track t else { s.track t with anchor := some 0 }) ∧
    restart s = { s with cyc := (restart s).cyc, lys.tracks := (restart s).lys.tracks })

/-- R22, R49: SONG_CLEAR returns the timeline to UNSET with C = 0, aborts every pass, ends the bounce and its waiting
list, frees every layer of every track, gives every track its reset record and sets the pinned-page total to 0; it
cancels the action queue where the timeline was RUNNING or counted in; the serial and park counters, N, the settings
and take memory stay. R16, R18: marks of the block that were withheld for a hold not yet made are sent, since the
timeline leaves RUNNING by this request (log 43); R65: where the freeing moves the low flag, POOL_LOW is sent, with the
timeline's fields from before the return to UNSET (log 52). That the OK stands behind the CANCELLED replies is log 22,
and that an aborted pass is marked as ended in the block log 13. -/
def Obligations.SongClearEndsTheLoopSet : Prop :=
  ∀ (s : State) (lk : Link) (tag : Byte), s.ready lk (.songClear lk tag) = true → s.inHold = false →
    ∃ t, exec (.songClear lk tag) s = .next t ∧
      t.cyc = { s.cyc with state := .unset, len := none, beats := none, pos := none, count := 0, taps := [],
                           lastTap := none, schedStart := none, measureStart := none, withheld := false } ∧
      (∀ p l b j, s.cyc.withheld = true → s.cyc.pos = some p → s.cyc.len = some l → s.cyc.beats = some b →
        (s.hears j .beatMark 4 = true →
          ∃ e ∈ (t.link j).events, e.info = s.info ∧ e.body = .beatMark (p / (l / b))) ∧
        (p = 0 → s.hears j .cycleMark 4 = true →
          ∃ e ∈ (t.link j).events, e.info = s.info ∧ e.body = .cycleMark l b)) ∧
      (s.cyc.withheld = false → ∀ j, ∀ e ∈ (t.link j).events, e ∉ (s.link j).events →
        e.body.kind ≠ .beatMark ∧ e.body.kind ≠ .cycleMark) ∧
      (t.pgp.low ≠ s.pgp.low → ∀ j, s.hears j .poolLow 8 = true → ∃ e ∈ (t.link j).events,
        e.info = s.info ∧ e.body = .poolLow t.pgp.low t.pgp.free.length) ∧
      (∀ i, t.input i =
        { s.input i with pass := none, endedHere := (s.input i).endedHere || (s.pass i).isSome }) ∧
      t.pse.openings = s.pse.openings ∧ (∀ u, t.track u = Track.reset) ∧
      (∀ u id, id ∈ (s.track u).stack ++ (s.track u).redo → t.layer id = none) ∧
      (∀ id, s.layer id = none → t.layer id = none) ∧
      t.lys.serials = s.lys.serials ∧ t.lys.parks = s.lys.parks ∧
      t.pgp = { s.pgp with free := t.pgp.free, reserved := t.pgp.reserved, pinnedTotal := 0, low := t.pgp.low,
                           lowest := t.pgp.lowest } ∧
      (s.bne.active = none → t.bne = { s.bne with waiting := [] } ∧ t.tmc = s.tmc) ∧
      (s.bne.active ≠ none → t.bne = { s.bne with engine := .idle, active := none, waiting := [] } ∧
        t.tmc = { s.tmc with credit := 0 }) ∧
      (s.cyc.state = .running ∨ (s.cyc.state = .counting ∧ s.cyc.schedStart ≠ none) → t.aqu.queue = []) ∧
      (s.cyc.state ≠ .running → s.cyc.state ≠ .counting → t.aqu = s.aqu) ∧
      t.mxe = s.mxe ∧ t.smn = s.smn ∧ t.mem = s.mem ∧ t.rqu.pointer = lk ∧
      (∃ r ∈ (t.link lk).replies.getLast?, r.request = 0x05 ∧ r.tag = some tag ∧ r.code = .ok ∧ r.completion = false)

/-! ## Passes -/

/-- R11, R28, R32, R54, R76, R78, R92: PASS_OPEN in UNSET opens a measuring pass: the FREE record with the lowest
number becomes RECORDING with the page at the free list's head in slot 0, the track becomes OPENING with anchor 0, the
timeline MEASURING with N0 = N, and PASS_STARTED is sent (where the claim does not move the low mark). R77, R79, R80:
on an EMPTY track in RUNNING, at a distance p from the cycle boundary within the grace, it opens an OPEN pass that
begins on that boundary, with p blocks to backfill, anchor C and the page of slot 0. On a LOOPING track it opens a
FIXED pass at the track position less the snap distance: R55, its group claim names the slots the snapped span touches,
and each takes its page from the free list's head, ascending; where the pool holds too few, the snap is dropped and
counted, and the pass begins at the current block with a single page. R32: the unpinned layers of the redo list are
freed first, head to tail, their pages joining the free-list tail, and the pinned ones keep their order; that a LOOPING
track whose stack is empty stays LOOPING, with its anchor and multiplier, where none of its redo list is pinned is the
model's reading (log 10). R78, R28: with neither a page nor a victim the request is answered NO_ROOM, and the loop set
is as it was; that the serial counter has advanced is the model's reading (log 11), and the opening order the counter's
value before it advances (log 45). -/
def Obligations.PassOpenMeasures : Prop :=
  (∀ (s : State) (lk : Link) (tag input track quantize : Byte) (mode : Quantize) (i : Input) (t : TrackId) (id : LayerId)
    (pg : Page) (rest : List Page),
    s.ready lk (.passOpen lk tag input track quantize) = true → s.inHold = false → inputArg input = some i →
    trackArg track = some t → quantizeArg quantize = some mode → s.pendingSame lk (.passOpen i t) = none →
    s.cyc.state = .unset → s.pass i = none → (s.track t).state = .empty → (s.track t).stack = [] →
    (s.track t).redo = [] → s.freeRecord = some id → s.pgp.free = pg :: rest →
    lowFlagAfter s.pgp.low rest.length = s.pgp.low →
    exec (.passOpen lk tag input track quantize) s = .next (s.served lk 0x06 tag .done fun x =>
      let layer : Layer :=
        { state := .recording, track := t, input := some i, length := none, start := 0, written := 0, map := [(0, pg)],
          level := 256, pinned := false, serial := s.lys.serials, stamp := none }
      let pass : Pass :=
        { state := .writing, track := t, kind := .measure, layer := id, start := 0, snap := 0, close := none,
          writePos := 0, backfill := 0, cut := none, order := s.pse.openings, spillReady := false }
      let y := (((x.withLayer id (some layer)).withTrack t
          { x.track t with state := .opening, anchor := some 0, stack := [id] }).withPass i (some pass)).withPgp
        { s.pgp with free := rest, lowest := min s.pgp.lowest rest.length }
      emit (.passStarted i t id s.lys.serials .measure 0 0)
        { y with cyc := { s.cyc with state := .measuring, measureStart := some s.cyc.block },
                 lys.serials := (s.lys.serials + 1) % 4294967296, pse.openings := s.pse.openings + 1 })) ∧
  (∀ (s : State) (lk : Link) (tag input track quantize : Byte) (mode : Quantize) (i : Input) (t : TrackId) (id : LayerId)
    (pg : Page) (rest : List Page) (p l : Nat),
    s.ready lk (.passOpen lk tag input track quantize) = true → s.inHold = false → inputArg input = some i →
    trackArg track = some t → quantizeArg quantize = some mode → s.pendingSame lk (.passOpen i t) = none →
    s.cyc.state = .running → s.cyc.pos = some p → s.cyc.len = some l → p ≤ (s.station lk).grace → p < 256 →
    s.pass i = none → (s.track t).state = .empty → (s.track t).stack = [] → (s.track t).redo = [] →
    s.freeRecord = some id → s.pgp.free = pg :: rest → lowFlagAfter s.pgp.low rest.length = s.pgp.low →
    exec (.passOpen lk tag input track quantize) s = .next (s.served lk 0x06 tag .done fun x =>
      let layer : Layer :=
        { state := .recording, track := t, input := some i, length := none, start := 0, written := p, map := [(0, pg)],
          level := 256, pinned := false, serial := s.lys.serials, stamp := none }
      let pass : Pass :=
        { state := .writing, track := t, kind := .opening, layer := id, start := 0, snap := p, close := none,
          writePos := p, backfill := p, cut := none, order := s.pse.openings, spillReady := false }
      let y := (((x.withLayer id (some layer)).withTrack t
          { x.track t with state := .opening, anchor := some s.cyc.count, stack := [id] }).withPass i (some pass)).withPgp
        { s.pgp with free := rest, lowest := min s.pgp.lowest rest.length }
      emit (.passStarted i t id s.lys.serials .opening 0 p)
        { y with lys.serials := (s.lys.serials + 1) % 4294967296, pse.openings := s.pse.openings + 1 })) ∧
  (∀ (s : State) (lk : Link) (tag input track quantize : Byte) (mode : Quantize) (i : Input) (t : TrackId) (id : LayerId)
    (d q len : Nat),
    s.ready lk (.passOpen lk tag input track quantize) = true → s.inHold = false → inputArg input = some i →
    trackArg track = some t → quantizeArg quantize = some mode → s.pendingSame lk (.passOpen i t) = none →
    s.cyc.state = .running → s.pass i = none → (s.track t).state = .looping → (s.track t).stack.length < 12 →
    (s.track t).redo = [] → s.freeRecord = some id → s.timing lk (.passOpen i t) mode = .atOnce d →
    s.trackPos t = some q → s.trackLen t = some len → q < len → d ≤ len →
    let opened (start d : Nat) (map : List (Nat × Page)) (pool : Pgp) : State :=
      s.served lk 0x06 tag .done fun x =>
        let layer : Layer :=
          { state := .recording, track := t, input := some i, length := some len, start := start, written := d,
            map := map, level := 256, pinned := false, serial := s.lys.serials, stamp := none }
        let pass : Pass :=
          { state := .writing, track := t, kind := .fixed, layer := id, start := start, snap := d, close := some start,
            writePos := q, backfill := d, cut := none, order := s.pse.openings, spillReady := false }
        let y := (((x.withLayer id (some layer)).withTrack t
            { x.track t with stack := (s.track t).stack ++ [id] }).withPass i (some pass)).withPgp pool
        emit (.passStarted i t id s.lys.serials .fixed start d)
          { y with lys.serials := (s.lys.serials + 1) % 4294967296, pse.openings := s.pse.openings + 1 }
    (d = 0 → ∀ pg rest, s.pgp.free = pg :: rest → lowFlagAfter s.pgp.low rest.length = s.pgp.low →
      exec (.passOpen lk tag input track quantize) s = .next (opened q 0 [(q / 256, pg)]
        { s.pgp with free := rest, lowest := min s.pgp.lowest rest.length })) ∧
    (1 ≤ d → ∃ slots : List Nat, slots.Pairwise (· < ·) ∧
      (∀ x, x ∈ slots ↔ ∃ j, j ≤ d ∧ x = ((q + len - d) % len + j) % len / 256) ∧
      (slots.length ≤ s.pgp.free.length →
        lowFlagAfter s.pgp.low (s.pgp.free.length - slots.length) = s.pgp.low →
        exec (.passOpen lk tag input track quantize) s = .next (opened ((q + len - d) % len) d (slots.zip s.pgp.free)
          { s.pgp with free := s.pgp.free.drop slots.length,
                       lowest := min s.pgp.lowest (s.pgp.free.length - slots.length) })) ∧
      ∀ pg rest, s.pgp.free.length + s.reclaimable < slots.length → s.pgp.free = pg :: rest →
        lowFlagAfter s.pgp.low rest.length = s.pgp.low →
        exec (.passOpen lk tag input track quantize) s = .next (opened q 0 [(q / 256, pg)]
          { s.pgp with free := rest, lowest := min s.pgp.lowest rest.length,
                       groupRefusals := min (s.pgp.groupRefusals + 1) 4294967295 })) ∧
    (d = 0 → s.pgp.free = [] → s.victim = none → (s.track t).stack ≠ [] → id ∉ (s.track t).stack →
      exec (.passOpen lk tag input track quantize) s = .next (s.served lk 0x06 tag .noRoom fun x =>
        { (x.withPgp { s.pgp with starved := min (s.pgp.starved + 1) 4294967295 }) with
          lys.serials := (s.lys.serials + 1) % 4294967296 }))) ∧
  ∀ (s : State) (lk : Link) (tag input track quantize : Byte) (i : Input) (t : TrackId) (pg : Page) (rest : List Page),
    s.ready lk (.passOpen lk tag input track quantize) = true → s.inHold = false → inputArg input = some i →
    trackArg track = some t → quantizeArg quantize = some .now → s.pendingSame lk (.passOpen i t) = none →
    s.cyc.state = .running → s.pass i = none → (s.track t).state = .looping → (s.track t).stack.length < 12 →
    (s.track t).redo.Nodup → (∀ id ∈ (s.track t).redo, id ∉ (s.track t).stack) →
    (∀ id ∈ (s.track t).redo, ∃ x, s.layer id = some x ∧ x.track = t) →
    let gone := (s.track t).redo.filter fun id => (s.layer id).any fun x => !x.pinned
    gone ≠ [] →
    s.pgp.free ++ (gone.flatMap fun id => ((s.layer id).map fun x => x.map.map (·.2)).getD []) = pg :: rest →
    ∃ u id, exec (.passOpen lk tag input track quantize) s = .next u ∧
      (s.layer id = none ∨ id ∈ gone) ∧ (∀ x, x < id → s.layer x ≠ none ∧ x ∉ gone) ∧
      u.track t = { s.track t with stack := (s.track t).stack ++ [id],
                                   redo := (s.track t).redo.filter fun x => x ∉ gone } ∧
      (∀ x ∈ gone, x ≠ id → u.layer x = none) ∧ (∀ x, x ≠ id → x ∉ gone → u.layer x = s.layer x) ∧
      (∃ l, u.layer id = some l ∧ l.state = .recording ∧ l.track = t ∧ l.serial = s.lys.serials ∧
        l.map.map (·.2) = [pg]) ∧
      u.pgp.free = rest ∧ u.lys.serials = (s.lys.serials + 1) % 4294967296 ∧
      ∃ r ∈ (u.link lk).replies.getLast?, r.request = 0x06 ∧ r.tag = some tag ∧ r.code = .done

/-- R12, R82, R87: PASS_CLOSE of a measuring pass fixes the cycle from m = N - N0 and places the timeline as if it had
run from N0; a longer cycle lets the pass write on, an equal one lets it wait for its spill, a shorter one ends it
COMPLETE with its written count at L. R85, R86: PASS_CLOSE of an OPEN pass executed at once, at a distance p from the
cycle boundary within the grace, closes it with k the whole cycles since its start: on the boundary it waits for its
spill; past it, it ends COMPLETE, trimmed to k L, its head blended with the ring's block of that boundary; with k = 0
the close is carried to the next boundary. R82, R88, R89: PASS_CLOSE of a FIXED pass cuts it CLOSED; while its backfill
goes on it stays open with that cause. A further close is answered DONE and changes nothing. That the write position
stays as it is while the pass waits for its spill is log 46. -/
def Obligations.PassCloseFixesTheCycle : Prop :=
  (∀ (s : State) (lk : Link) (tag input quantize : Byte) (mode : Quantize) (i : Input) (p : Pass) (l : Layer) (n0 : Nat),
    s.ready lk (.passClose lk tag input quantize) = true → s.inHold = false → inputArg input = some i →
    quantizeArg quantize = some mode → s.pendingSame lk (.passClose i) = none → s.pass i = some p → p.kind = .measure →
    p.state = .writing → p.cut = none → p.close = none → s.cyc.state = .measuring → s.cyc.measureStart = some n0 →
    s.layer p.layer = some l →
    let m := diff32 s.cyc.block n0
    let len := roundCycle m s.cyc.setting
    let placed (x : State) : State :=
      ((emitMarks (x.withCyc
        { x.cyc with state := .running, len := some len, beats := some s.cyc.setting, pos := some (m % len),
                     count := m / len % 53760, measureStart := none })).withTrack p.track
        { s.track p.track with state := .looping, mult := some 1 }).withLayer p.layer
        (some { l with length := some (1 * len) })
    (m < len → exec (.passClose lk tag input quantize) s = .next (s.served lk 0x07 tag .done fun x =>
      (placed x).withPass i (some { p with close := some len }))) ∧
    (m = len → exec (.passClose lk tag input quantize) s = .next (s.served lk 0x07 tag .done fun x =>
      (placed x).withPass i (some { p with state := .spillWait, close := some len, spillReady := false }))) ∧
    (len < m → l.written = m →
      ∃ t, exec (.passClose lk tag input quantize) s = .next t ∧ t.pass i = none ∧ t.cyc = (placed s).cyc ∧
        t.track p.track = (placed s).track p.track ∧
        t.layer p.layer = some { l with
          state := .live, length := some (1 * len), written := len,
          map := l.map.filter fun c => slotKept l.start len (1 * len) c.1 } ∧
        ∃ r ∈ (t.link lk).replies.getLast?, r.request = 0x07 ∧ r.tag = some tag ∧ r.code = .done)) ∧
  (∀ (s : State) (lk : Link) (tag input quantize : Byte) (mode : Quantize) (i : Input) (p : Pass) (l : Layer)
    (pos len a : Nat),
    s.ready lk (.passClose lk tag input quantize) = true → s.inHold = false → inputArg input = some i →
    quantizeArg quantize = some mode → s.pendingSame lk (.passClose i) = none → s.pass i = some p → p.kind = .opening →
    p.state = .writing → p.cut = none → p.close = none → s.cyc.state = .running → s.cyc.pos = some pos →
    s.cyc.len = some len → pos ≤ (s.station lk).grace → (s.track p.track).anchor = some a → s.layer p.layer = some l →
    let k := (s.cyc.count + (53760 - a % 53760)) % 53760
    let looping (x : State) : State :=
      (x.withTrack p.track { s.track p.track with state := .looping, mult := some k }).withLayer p.layer
        (some { l with length := some (k * len) })
    (k = 0 → exec (.passClose lk tag input quantize) s = .next (s.served lk 0x07 tag .done fun x =>
      x.withPass i (some { p with close := some len }))) ∧
    (1 ≤ k → pos = 0 → exec (.passClose lk tag input quantize) s = .next (s.served lk 0x07 tag .done fun x =>
      (looping x).withPass i (some { p with state := .spillWait, close := some (k * len), spillReady := false }))) ∧
    ∀ pg, 1 ≤ k → 1 ≤ pos → k * len < l.written →
      slotPage (l.map.filter fun c => slotKept l.start (k * len) (k * len) c.1) (p.start / 256) = some pg →
      ∃ t, exec (.passClose lk tag input quantize) s = .next t ∧ t.pass i = none ∧ t.cyc = s.cyc ∧
        t.track p.track = (looping s).track p.track ∧
        t.layer p.layer = some { l with
          state := .live, length := some (k * len), written := k * len,
          map := l.map.filter fun c => slotKept l.start (k * len) (k * len) c.1 } ∧
        t.mem = writeBlock s.mem pg (p.start % 256)
          (seamBlend (readBlock s.mem pg (p.start % 256)) ((s.input i).ring.getD (pos - 1) silence)) ∧
        ∃ r ∈ (t.link lk).replies.getLast?, r.request = 0x07 ∧ r.tag = some tag ∧ r.code = .done) ∧
  ∀ (s : State) (lk : Link) (tag input quantize : Byte) (mode : Quantize) (i : Input) (p : Pass) (l : Layer),
    s.ready lk (.passClose lk tag input quantize) = true → s.inHold = false → inputArg input = some i →
    quantizeArg quantize = some mode → s.pendingSame lk (.passClose i) = none → s.pass i = some p →
    s.timing lk (.passClose i) mode = .atOnce 0 → s.layer p.layer = some l →
    (p.kind = .fixed → p.state = .writing → p.cut = none → 0 < p.backfill →
      exec (.passClose lk tag input quantize) s = .next (s.served lk 0x07 tag .done fun x =>
        x.withPass i (some { p with cut := some .closed }))) ∧
    (p.kind = .fixed → p.state = .writing → p.cut = none → p.backfill = 0 → 1 ≤ l.written →
      ∃ t, exec (.passClose lk tag input quantize) s = .next t ∧ t.pass i = none ∧ t.cyc = s.cyc ∧
        t.layer p.layer = some { l with state := .live } ∧ t.pgp = s.pgp ∧ (∀ u, t.track u = s.track u) ∧
        (∀ id, id ≠ p.layer → t.layer id = s.layer id) ∧
        ∃ r ∈ (t.link lk).replies.getLast?, r.request = 0x07 ∧ r.tag = some tag ∧ r.code = .done) ∧
    (p.state = .spillWait ∨ p.cut ≠ none ∨ (p.kind ≠ .fixed ∧ p.close ≠ none) →
      exec (.passClose lk tag input quantize) s = .next (s.served lk 0x07 tag .done id))

/-! ## The action queue -/

/-- R96, R97, R98: in RUNNING the due block of BEAT, CYCLE and TRACK is the next boundary of the mode, a TRACK request
without a track length being timed as CYCLE; NOW is executed at once; a PASS_OPEN within the station's grace of the last
boundary is executed at once with that snap distance, on a track that is not LOOPING the cycle's boundary, on a LOOPING
track that of its mode. A PASS_CLOSE of an OPEN pass is timed by the cycle with grace, whatever mode it carries and
whatever its track, one of a FIXED pass by its mode without grace, one of a measuring pass at once. R95: outside RUNNING
every mode is at once, but for a PASS_OPEN after the fourth tap, which is due at the scheduled start. -/
def Obligations.QuantizeModesNameTheDueBlock : Prop :=
  (∀ (s : State) (lk : Link) (t : TrackId) (i : Input) (p l b : Nat), s.cyc.state = .running → s.cyc.pos = some p →
    s.cyc.len = some l → s.cyc.beats = some b →
    let grace := (s.station lk).grace
    let due (d : Nat) : Timing := .due ((s.cyc.block + d) % 4294967296)
    let boundary (v : TrackId) (mode : Quantize) (len r : Nat) : Prop :=
      match mode with
      | .now => False
      | .beat => len = l / b ∧ r = p % (l / b)
      | .cycle => len = l ∧ r = p
      | .track => (s.trackLen v = some len ∧ s.trackPos v = some r) ∨ (s.trackLen v = none ∧ len = l ∧ r = p)
    (∀ a, a = .layerUndo t ∨ a = .layerRedo t ∨ a = .trackClear t ∨ (∃ on, a = .trackMute t on) →
      s.timing lk a .now = .atOnce 0 ∧
      ∀ mode len r, boundary t mode len r → s.timing lk a mode = due (len - r)) ∧
    (s.timing lk .transportStop .now = .atOnce 0 ∧ s.timing lk .transportStop .beat = due (l / b - p % (l / b)) ∧
      s.timing lk .transportStop .cycle = due (l - p) ∧ s.timing lk .transportStop .track = due (l - p)) ∧
    ((s.track t).state ≠ .looping → ∀ mode,
      (p ≤ grace → s.timing lk (.passOpen i t) mode = .atOnce p) ∧
      (grace < p → s.timing lk (.passOpen i t) mode = due (l - p))) ∧
    ((s.track t).state = .looping →
      s.timing lk (.passOpen i t) .now = .atOnce 0 ∧
      ∀ mode len r, boundary t mode len r →
        (r ≤ grace → s.timing lk (.passOpen i t) mode = .atOnce r) ∧
        (grace < r → s.timing lk (.passOpen i t) mode = due (len - r))) ∧
    ∀ x, s.pass i = some x →
      (x.kind = .opening → ∀ mode,
        (p ≤ grace → s.timing lk (.passClose i) mode = .atOnce p) ∧
        (grace < p → s.timing lk (.passClose i) mode = due (l - p))) ∧
      (x.kind = .fixed →
        s.timing lk (.passClose i) .now = .atOnce 0 ∧
        ∀ mode len r, boundary x.track mode len r → s.timing lk (.passClose i) mode = due (len - r)) ∧
      (x.kind = .measure → ∀ mode, s.timing lk (.passClose i) mode = .atOnce 0)) ∧
  ∀ (s : State) (lk : Link) (a : Action) (mode : Quantize), s.cyc.state ≠ .running →
    (∀ i t n, a = .passOpen i t → s.cyc.state = .counting → s.cyc.schedStart = some n → s.timing lk a mode = .due n) ∧
    (s.cyc.state ≠ .counting ∨ s.cyc.schedStart = none ∨ (∀ i t, a ≠ .passOpen i t) → s.timing lk a mode = .atOnce 0)

/-- R99, R100, R101, R102, R109: a quantized request of any of the seven kinds withdraws the station's pending entry of
the same kind and target; else, where its timing gives a due block, it becomes an entry and is answered QUEUED with its
due block, its distance and its arrival number, or is refused QUEUE_FULL where 16 entries wait. The new entry stands
behind every entry due no later than it and ahead of every entry due later; the others keep their order. R77, R82, R19:
the owner's checks at the taking, in order: for a PASS_OPEN the timeline (WRONG_STATE), the input (INPUT_BUSY), the
track (TRACK_OPENING) and its stack (STACK_FULL), for a PASS_CLOSE an open pass (NO_PASS), for a TRANSPORT_STOP the
timeline (WRONG_STATE); the four track requests have none. -/
def Obligations.QuantizedRequestWaits : Prop :=
  (∀ (c : Instr) (s : State) (lk : Link) (tag : Byte) (a : Action) (mode : Quantize), s.ready lk c = true →
    s.inHold = false → quantizedOf c = some (lk, tag, a, mode) →
    (∀ e, s.pendingSame lk a = some e →
      exec c s = .next (s.served lk a.code tag .withdrawn fun x =>
        reply lk a.code e.tag true .cancelled .none
          (x.withAqu { s.aqu with queue := s.aqu.queue.erase e }))) ∧
    (∀ rc, s.pendingSame lk a = none → s.takingCheck a = some rc →
      exec c s = .next (s.served lk a.code tag rc id)) ∧
    ∀ n, s.pendingSame lk a = none → s.takingCheck a = none → s.timing lk a mode = .due n →
      (16 ≤ s.aqu.queue.length →
        exec c s = .next (s.served lk a.code tag .queueFull fun x =>
          x.withAqu { s.aqu with fulls := min (s.aqu.fulls + 1) 4294967295 })) ∧
      (s.aqu.queue.length < 16 →
        let e : Entry :=
          { action := a, mode := mode, station := lk, tag := tag, due := n, arrival := s.aqu.arrivals,
            passLayer := s.passLayerOf a }
        exec c s = .next (s.served lk a.code tag .queued
          (fun x => x.withAqu { s.aqu with queue := insertEntry s.cyc.block e s.aqu.queue,
                                           arrivals := (s.aqu.arrivals + 1) % 4294967296 })
          (.queued n (diff32 n s.cyc.block) s.aqu.arrivals)))) ∧
  (∀ (now : Nat) (e : Entry) (q : List Entry),
    q.Pairwise (fun x y => diff32 x.due now ≤ diff32 y.due now) →
    ∃ front back, q = front ++ back ∧ insertEntry now e q = front ++ e :: back ∧
      (∀ x ∈ front, diff32 x.due now ≤ diff32 e.due now) ∧ ∀ x ∈ back, diff32 e.due now < diff32 x.due now) ∧
  ∀ (s : State) (i : Input) (t : TrackId) (on : Bool),
    let opens := s.cyc.state = .unset ∨ s.cyc.state = .running ∨ (s.cyc.state = .counting ∧ s.cyc.schedStart ≠ none)
    let stops := s.cyc.state = .counting ∨ s.cyc.state = .running
    (¬opens → s.takingCheck (.passOpen i t) = some .wrongState) ∧
    (opens → s.pass i ≠ none → s.takingCheck (.passOpen i t) = some .inputBusy) ∧
    (opens → s.pass i = none → (s.track t).state = .opening → s.takingCheck (.passOpen i t) = some .trackOpening) ∧
    (opens → s.pass i = none → (s.track t).state ≠ .opening →
      (12 ≤ (s.track t).stack.length → s.takingCheck (.passOpen i t) = some .stackFull) ∧
      ((s.track t).stack.length < 12 → s.takingCheck (.passOpen i t) = none)) ∧
    (s.pass i = none → s.takingCheck (.passClose i) = some .noPass) ∧
    (s.pass i ≠ none → s.takingCheck (.passClose i) = none) ∧
    (¬stops → s.takingCheck .transportStop = some .wrongState) ∧ (stops → s.takingCheck .transportStop = none) ∧
    s.takingCheck (.layerUndo t) = none ∧ s.takingCheck (.layerRedo t) = none ∧ s.takingCheck (.trackClear t) = none ∧
    s.takingCheck (.trackMute t on) = none

/-! ## Tracks and layers -/

/-- R38, R75: LAYER_UNDO executed at once on a track with open passes aborts the one with the largest opening order,
and does nothing further. R91, R30: the abort empties the pass record, whatever its state, backfill and cut, frees its
layer, which leaves the stack wherever it stands, gives its pages to the free-list tail in slot order, and sends
PASS_ENDED with outcome ABORTED and n = 0; no layer is parked and the redo list is untouched. R24, R14: the track whose
lists are then empty and without a pass returns to EMPTY, the timeline of a measuring pass in MEASURING to UNSET. R39,
R31: with no pass open the undo answers NOTHING for an empty stack and REDO_FULL for a full redo list with a pinned
head, and else parks the top layer at the redo list's tail with the next park stamp. -/
def Obligations.UndoParksTheTopLayer : Prop :=
  (∀ (s : State) (lk : Link) (tag track quantize : Byte) (mode : Quantize) (t : TrackId),
    s.ready lk (.layerUndo lk tag track quantize) = true → s.inHold = false → trackArg track = some t →
    quantizeArg quantize = some mode → s.pendingSame lk (.layerUndo t) = none →
    mode = .now ∨ s.cyc.state ≠ .running →
    let result := exec (.layerUndo lk tag track quantize) s
    (∀ i, s.newestPass t = some i →
      result = .next (s.served lk 0x08 tag .done fun x => abortPass true true i x)) ∧
    (∀ i p l, s.newestPass t = some i → s.pass i = some p → s.layer p.layer = some l → l.track = t →
      p.layer ∉ (s.track t).redo →
      let stack := (s.track t).stack.filter (· ≠ p.layer)
      ∃ u, result = .next u ∧
        u.inner = ({ s with cyc := u.cyc, lys := u.lys, pgp := u.pgp, pse := u.pse } : State).inner ∧
        u.input i = { s.input i with pass := none, endedHere := true } ∧ (∀ j, j ≠ i → u.input j = s.input j) ∧
        u.pse.openings = s.pse.openings ∧ u.layer p.layer = none ∧ (∀ id, id ≠ p.layer → u.layer id = s.layer id) ∧
        u.lys.serials = s.lys.serials ∧ u.lys.parks = s.lys.parks ∧
        (stack ≠ [] ∨ (s.track t).redo ≠ [] ∨ (∃ j q, j ≠ i ∧ s.pass j = some q ∧ q.track = t) →
          u.track t = { s.track t with stack := stack }) ∧
        (stack = [] → (s.track t).redo = [] → (s.track t).state ≠ .empty →
          (∀ j q, j ≠ i → s.pass j = some q → q.track ≠ t) →
          u.track t = { s.track t with state := .empty, mult := none, anchor := none, stack := [] }) ∧
        (∀ v, v ≠ t → u.track v = s.track v) ∧
        u.pgp = { s.pgp with
          free := s.pgp.free ++ l.map.map (·.2), low := u.pgp.low,
          lowest := min s.pgp.lowest (s.pgp.free.length + l.map.length),
          pinnedTotal := if l.pinned then s.pgp.pinnedTotal - l.map.length else s.pgp.pinnedTotal } ∧
        (p.kind = .measure → s.cyc.state = .measuring → u.cyc = { s.cyc with
          state := .unset, len := none, beats := none, pos := none, taps := [], lastTap := none, schedStart := none,
          measureStart := none, withheld := false, count := 0 }) ∧
        (p.kind ≠ .measure ∨ s.cyc.state ≠ .measuring → u.cyc = s.cyc) ∧
        (∀ j, s.hears j .passEnded 2 = true → ∃ e ∈ (u.link j).events, e.info = u.info ∧
          e.body = .passEnded i t p.layer l.serial p.kind p.start .aborted none 0
            (if p.kind = .fixed then none else l.length.bind fun a => s.cyc.len.map fun b => a / b)
            (if p.kind = .measure then l.length else none)) ∧
        ∃ r ∈ (u.link lk).replies.getLast?, r.request = 0x08 ∧ r.tag = some tag ∧ r.code = .done) ∧
    (s.newestPass t = none → (s.track t).stack = [] → result = .next (s.served lk 0x08 tag .nothing id)) ∧
    ∀ rest top l, s.newestPass t = none → (s.track t).stack = rest ++ [top] → top ∉ rest →
      s.layer top = some l → l.track = t →
      (∀ head tl h, (s.track t).redo = head :: tl → tl.length = 11 → s.layer head = some h → h.pinned = true →
        result = .next (s.served lk 0x08 tag .redoFull id)) ∧
      ((s.track t).redo.length < 12 → s.isSource top = false → s.lys.parks < 4294967295 →
        result = .next (s.served lk 0x08 tag .done fun x =>
          let y := (x.withTrack t
              { s.track t with stack := rest, redo := (s.track t).redo ++ [top] }).withLayer top
            (some { l with state := .parked, stamp := some s.lys.parks })
          { y with lys.parks := s.lys.parks + 1 }))) ∧
  ∀ (s : State) (t : TrackId),
    (∀ i, s.newestPass t = some i ↔ ∃ p, s.pass i = some p ∧ p.track = t ∧
      ∀ j q, s.pass j = some q → q.track = t → q.order < p.order ∨ (q.order = p.order ∧ i ≤ j)) ∧
    (s.newestPass t = none ↔ ∀ i p, s.pass i = some p → p.track ≠ t)

/-- R40, R43: LAYER_REDO executed at once answers NOTHING for an empty redo list and STACK_FULL for a stack of 12, and
else returns the redo list's tail to the top of the stack as LIVE; TRACK_MUTE executed at once sets the mute in every
track state. -/
def Obligations.RedoReturnsTheTail : Prop :=
  (∀ (s : State) (lk : Link) (tag track quantize : Byte) (mode : Quantize) (t : TrackId),
    s.ready lk (.layerRedo lk tag track quantize) = true → s.inHold = false → trackArg track = some t →
    quantizeArg quantize = some mode → s.pendingSame lk (.layerRedo t) = none →
    mode = .now ∨ s.cyc.state ≠ .running →
    let result := exec (.layerRedo lk tag track quantize) s
    ((s.track t).redo = [] → result = .next (s.served lk 0x09 tag .nothing id)) ∧
    ((s.track t).redo ≠ [] → 12 ≤ (s.track t).stack.length →
      result = .next (s.served lk 0x09 tag .stackFull id)) ∧
    ∀ rest id l, (s.track t).redo = rest ++ [id] → (s.track t).stack.length < 12 → s.layer id = some l →
      result = .next (s.served lk 0x09 tag .done fun x =>
        (x.withTrack t { s.track t with redo := rest, stack := (s.track t).stack ++ [id] }).withLayer id
          (some { l with state := .live, stamp := none }))) ∧
  ∀ (s : State) (lk : Link) (tag track quantize setting : Byte) (mode : Quantize) (t : TrackId) (on : Bool),
    s.ready lk (.trackMute lk tag track quantize setting) = true → s.inHold = false → trackArg track = some t →
    quantizeArg quantize = some mode → settingArg setting = some on → s.pendingSame lk (.trackMute t on) = none →
    mode = .now ∨ s.cyc.state ≠ .running →
    exec (.trackMute lk tag track quantize setting) s = .next (s.served lk 0x0A tag .done fun x =>
      x.withTrack t { s.track t with mute := on })

/-- R41, R31: TRACK_CLEAR executed at once answers NOTHING for an empty stack without an open pass and REDO_FULL where
the LIVE layers and the pinned redo entries exceed 12; on a track with room, without a pass or a bounce, it parks the
whole stack behind the redo list, top first, with consecutive park stamps, and changes nothing else. -/
def Obligations.ClearParksTheStack : Prop :=
  ∀ (s : State) (lk : Link) (tag track quantize : Byte) (mode : Quantize) (t : TrackId),
    s.ready lk (.trackClear lk tag track quantize) = true → s.inHold = false → trackArg track = some t →
    quantizeArg quantize = some mode → s.pendingSame lk (.trackClear t) = none →
    mode = .now ∨ s.cyc.state ≠ .running →
    let result := exec (.trackClear lk tag track quantize) s
    let tr := s.track t
    (tr.stack = [] → s.passOn t = false → result = .next (s.served lk 0x0B tag .nothing id)) ∧
    (tr.stack ≠ [] → 12 < (s.liveOf tr.stack).length + (s.havingPin true tr.redo).length →
      result = .next (s.served lk 0x0B tag .redoFull id)) ∧
    (tr.stack ≠ [] → s.passOn t = false → (∀ b, s.bne.active = some b → b.track ≠ t) → tr.stack.Nodup →
      (∀ id ∈ tr.stack, ∃ l, s.layer id = some l ∧ l.state = .live ∧ l.track = t) →
      tr.stack.length + tr.redo.length ≤ 12 → s.lys.parks + 12 < 4294967296 →
      ∃ u, result = .next u ∧ u.inner = ({ s with lys := u.lys } : State).inner ∧
        u.track t = { tr with stack := [], redo := tr.redo ++ tr.stack.reverse } ∧
        (∀ v, v ≠ t → u.track v = s.track v) ∧
        (∀ k (h : k < tr.stack.reverse.length), u.layer tr.stack.reverse[k] =
          (s.layer tr.stack.reverse[k]).map fun l => { l with state := .parked, stamp := some (s.lys.parks + k) }) ∧
        (∀ id, id ∉ tr.stack → u.layer id = s.layer id) ∧
        u.lys.serials = s.lys.serials ∧ u.lys.parks = s.lys.parks + tr.stack.length ∧
        ∃ r ∈ (u.link lk).replies.getLast?, r.request = 0x0B ∧ r.tag = some tag ∧ r.code = .done)

/-- R42, R30, R53, R24: TRACK_ERASE answers NOTHING on an EMPTY track; on a LOOPING track without a pass, a bounce or a
pin it frees the stack from bottom to top and the redo list from head to tail, their pages joining the free-list tail
in that order, and the track becomes EMPTY with its level, mute and route kept. R65: the low mark is tested once for
the whole: the flag goes on below 256 free pages and off from 320, with one POOL_LOW to the stations that hear it, and
else none. -/
def Obligations.EraseFreesTheTrack : Prop :=
  ∀ (s : State) (lk : Link) (tag track : Byte) (t : TrackId), s.ready lk (.trackErase lk tag track) = true →
    s.inHold = false → trackArg track = some t →
    let tr := s.track t
    (tr.state = .empty → exec (.trackErase lk tag track) s = .next (s.served lk 0x0C tag .nothing id)) ∧
    (tr.state = .looping → s.passOn t = false → (∀ b, s.bne.active = some b → b.track ≠ t) →
      tr.stack ++ tr.redo ≠ [] → (tr.stack ++ tr.redo).Nodup →
      (∀ id ∈ tr.stack ++ tr.redo, ∃ l, s.layer id = some l ∧ l.pinned = false ∧ l.track = t) →
      ∃ u, exec (.trackErase lk tag track) s = .next u ∧
        u.inner = ({ s with lys := u.lys, pgp := u.pgp } : State).inner ∧
        u.track t = { tr with state := .empty, mult := none, anchor := none, stack := [], redo := [] } ∧
        (∀ v, v ≠ t → u.track v = s.track v) ∧ (∀ id ∈ tr.stack ++ tr.redo, u.layer id = none) ∧
        (∀ id, id ∉ tr.stack ++ tr.redo → u.layer id = s.layer id) ∧
        u.lys.serials = s.lys.serials ∧ u.lys.parks = s.lys.parks ∧
        u.pgp = { s.pgp with
          free := s.pgp.free ++ (tr.stack ++ tr.redo).flatMap fun id =>
            ((s.layer id).map fun l => l.map.map (·.2)).getD [],
          low := u.pgp.low, lowest := min s.pgp.lowest u.pgp.free.length } ∧
        u.pgp.low = (if s.pgp.low then u.pgp.free.length < 320 else u.pgp.free.length < 256 : Bool) ∧
        (u.pgp.low ≠ s.pgp.low → ∀ j, s.hears j .poolLow 1 = true → ∃ e ∈ (u.link j).events, e.info = s.info ∧
          e.body = .poolLow u.pgp.low u.pgp.free.length) ∧
        (u.pgp.low = s.pgp.low → ∀ j, ∀ e ∈ (u.link j).events, e ∉ (s.link j).events → e.body.kind ≠ .poolLow) ∧
        ∃ r ∈ (u.link lk).replies.getLast?, r.request = 0x0C ∧ r.tag = some tag ∧ r.code = .ok)

/-- R44, R45, R46: TRACK_LEVEL sets the track's level, clamped to 256, and TRACK_ROUTE its route, in every track state;
LAYER_LEVEL sets the level, clamped to 256, of a RECORDING or PARKED layer and of a LIVE one that is no source of the
active bounce; a source is refused BOUNCING, a FORMING or FREE layer WRONG_STATE. -/
def Obligations.TrackAndLayerLevelsAreSet : Prop :=
  ((∀ (s : State) (lk : Link) (tag track : Byte) (level : Word16) (t : TrackId),
    s.ready lk (.trackLevel lk tag track level) = true → s.inHold = false → trackArg track = some t →
    exec (.trackLevel lk tag track level) s = .next (s.served lk 0x0D tag .ok fun x =>
      x.withTrack t { s.track t with level := min level.toNat 256 })) ∧
  ∀ (s : State) (lk : Link) (tag track route : Byte) (t : TrackId) (r : Route),
    s.ready lk (.trackRoute lk tag track route) = true → s.inHold = false → trackArg track = some t →
    routeArg route = some r →
    exec (.trackRoute lk tag track route) s = .next (s.served lk 0x0E tag .ok fun x =>
      x.withTrack t { s.track t with route := r })) ∧
  (∀ (s : State) (lk : Link) (tag layer : Byte) (level : Word16) (id : LayerId),
    s.ready lk (.layerLevel lk tag layer level) = true → s.inHold = false → layerArg layer = some id →
    let result := exec (.layerLevel lk tag layer level) s
    (s.layer id = none → result = .next (s.served lk 0x0F tag .wrongState fun x => x)) ∧
    ∀ l, s.layer id = some l →
      (l.state = .forming → result = .next (s.served lk 0x0F tag .wrongState fun x => x)) ∧
      (l.state = .live → s.isSource id = true → result = .next (s.served lk 0x0F tag .bouncing fun x => x)) ∧
      (l.state ≠ .forming → l.state ≠ .live ∨ s.isSource id = false →
        result = .next (s.served lk 0x0F tag .ok fun x =>
          x.withLayer id (some { l with level := min level.toNat 256 }))))

/-- R47, R48, R64: LAYER_PIN on is refused WRONG_STATE for a FREE, RECORDING or FORMING layer, BOUNCING for a source,
PIN_LIMIT above 3 072 pages, changes nothing for a pinned layer, and else pins it and raises the pinned-page total; off,
it unpins a pinned layer and lowers the total. -/
def Obligations.LayerPinFollowsTheLimit : Prop :=
  ∀ (s : State) (lk : Link) (tag layer : Byte) (id : LayerId), layerArg layer = some id → s.inHold = false →
    (s.ready lk (.layerPin lk tag layer 0x01) = true →
      let result := exec (.layerPin lk tag layer 0x01) s
      (s.layer id = none → result = .next (s.served lk 0x10 tag .wrongState fun x => x)) ∧
      ∀ l, s.layer id = some l →
        (l.state = .recording ∨ l.state = .forming →
          result = .next (s.served lk 0x10 tag .wrongState fun x => x)) ∧
        (l.state = .live ∨ l.state = .parked →
          (s.isSource id = true → result = .next (s.served lk 0x10 tag .bouncing fun x => x)) ∧
          (s.isSource id = false →
            (l.pinned = true → result = .next (s.served lk 0x10 tag .ok fun x => x)) ∧
            (l.pinned = false → 3072 < s.pgp.pinnedTotal + l.map.length →
              result = .next (s.served lk 0x10 tag .pinLimit fun x => x)) ∧
            (l.pinned = false → s.pgp.pinnedTotal + l.map.length ≤ 3072 →
              result = .next (s.served lk 0x10 tag .ok fun x =>
                (x.withLayer id (some { l with pinned := true })).withPgp
                  { s.pgp with pinnedTotal := s.pgp.pinnedTotal + l.map.length }))))) ∧
    (s.ready lk (.layerPin lk tag layer 0x00) = true →
      let result := exec (.layerPin lk tag layer 0x00) s
      (s.layer id = none → result = .next (s.served lk 0x10 tag .ok fun x => x)) ∧
      ∀ l, s.layer id = some l →
        (l.pinned = false → result = .next (s.served lk 0x10 tag .ok fun x => x)) ∧
        (l.pinned = true → result = .next (s.served lk 0x10 tag .ok fun x =>
          (x.withLayer id (some { l with pinned := false })).withPgp
            { s.pgp with pinnedTotal := s.pgp.pinnedTotal - l.map.length })))

/-! ## Bounce -/

/-- R133, R134, R136: a SCAN with the engine IDLE and its list empty starts at once over the bottom j stack layers, with
stroke 0 in flight and the credit at 0; a station that has a bounce is refused BUSY; a bounce that finds the engine at
work waits at the tail of the list, answered QUEUED. -/
def Obligations.BounceScanStarts : Prop :=
  ∀ (s : State) (lk : Link) (tag track count mode : Byte) (t : TrackId) (j : Nat) (m : BounceMode),
    s.ready lk (.bounce lk tag track count mode) = true → s.inHold = false → trackArg track = some t →
    bounceCountArg count = some j → bounceModeArg mode = some m →
    let result := exec (.bounce lk tag track count mode) s
    (s.bouncesFor lk = true → result = .next (s.served lk 0x11 tag .busy id)) ∧
    (s.bouncesFor lk = false → s.bne.engine ≠ .idle ∨ s.bne.waiting ≠ [] →
      result = .next (s.served lk 0x11 tag .queued fun x =>
        x.withBne { s.bne with waiting := s.bne.waiting ++ [⟨t, j, m, lk, tag⟩] })) ∧
    ∀ sources above k l, s.bouncesFor lk = false → s.bne.engine = .idle → s.bne.waiting = [] → m = .scan →
      (s.track t).state = .looping → (s.track t).stack = sources ++ above → sources.length = j →
      (∀ id ∈ sources, ∃ x, s.layer id = some x ∧ x.state = .live ∧ x.pinned = false) →
      (s.track t).mult = some k → s.cyc.len = some l →
      result = .next (s.served lk 0x11 tag .ok fun x =>
        let b : Bounce :=
          { track := t, count := j, mode := .scan, station := lk, tag := tag, owed := true,
            sources := sources.map fun id =>
              ⟨id, ((s.layer id).map (·.serial)).getD 0, ((s.layer id).map (·.level)).getD 0⟩,
            dest := none, total := (k * l + 31) / 32, done := 0, stroke := some (0, j * min 32 (k * l)), peak := 0,
            clips := 0, suspendPending := false }
        (x.withBne { s.bne with active := some b, engine := .scanning }).withTmc { s.tmc with credit := 0 })

/-- R60, R134, R35, R28: a COMMIT whose record and pages are to be had without a reclaim takes the FREE record with the
lowest number as its FORMING destination and ceil(Ltr/256) pages from the free list's head into the reservation, which
is held in strictly ascending order, the pages being distinct; one that finds too few pages is refused NO_ROOM and
moves none. R57, R58, R59: the victim is the PARKED, unpinned layer with the smallest park stamp; where the pages of
one victim make up the need, it is freed from its redo list, its pages join the free-list tail in slot order, both
counts rise, LAYER_RECLAIMED is sent, and the claim is met. -/
def Obligations.BounceCommitClaimsItsPages : Prop :=
  (∀ (s : State) (lk : Link) (tag track count mode : Byte) (t : TrackId) (j k l : Nat) (sources above : List LayerId)
    (id : LayerId), s.ready lk (.bounce lk tag track count mode) = true → s.inHold = false → trackArg track = some t →
    bounceCountArg count = some j → bounceModeArg mode = some .commit → s.bouncesFor lk = false → s.bne.engine = .idle →
    s.bne.waiting = [] → (s.track t).state = .looping → (s.track t).stack = sources ++ above → sources.length = j →
    (∀ x ∈ sources, ∃ y, s.layer x = some y ∧ y.state = .live ∧ y.pinned = false) → (s.track t).mult = some k →
    s.cyc.len = some l → s.freeRecord = some id →
    let need := (k * l + 255) / 256
    (s.freeCount + s.reclaimable < need →
      exec (.bounce lk tag track count mode) s = .next (s.served lk 0x11 tag .noRoom fun x => x)) ∧
    (need ≤ s.freeCount →
      ∃ u, exec (.bounce lk tag track count mode) s = .next u ∧
        u.pgp.free = s.pgp.free.drop need ∧ u.pgp.reserved.Perm (s.pgp.reserved ++ s.pgp.free.take need) ∧
        ((s.pgp.reserved ++ s.pgp.free).Nodup → u.pgp.reserved.Pairwise (· < ·)) ∧
        u.layer id = some { state := .forming, track := t, input := none, length := some (k * l), start := 0,
                            written := 0, map := [], level := 256, pinned := false, serial := s.lys.serials,
                            stamp := none } ∧
        (∀ x, x ≠ id → u.layer x = s.layer x) ∧ (∀ v, u.track v = s.track v) ∧
        u.lys.serials = (s.lys.serials + 1) % 4294967296 ∧ u.lys.parks = s.lys.parks ∧
        u.bne.engine = .committing ∧ u.tmc = { s.tmc with credit := 0 } ∧ u.mem = s.mem ∧
        (∃ b, u.bne.active = some b ∧ b.dest = some id ∧ b.mode = .commit ∧ b.total = (k * l + 31) / 32 ∧
          b.stroke = some (0, (j + 1) * min 32 (k * l)) ∧ b.owed = true) ∧
        ∃ r ∈ (u.link lk).replies.getLast?, r.request = 0x11 ∧ r.tag = some tag ∧ r.code = .ok) ∧
    ∀ v y, s.victim = some v → s.layer v = some y → s.freeCount < need → need ≤ s.freeCount + y.map.length →
      y.track ≠ t → v ∉ (s.track y.track).stack →
      ∃ u dest, exec (.bounce lk tag track count mode) s = .next u ∧ dest = (if v < id then v else id) ∧
        u.pgp.free = (s.pgp.free ++ y.map.map (·.2)).drop need ∧
        u.pgp.reserved.Perm (s.pgp.reserved ++ (s.pgp.free ++ y.map.map (·.2)).take need) ∧
        ((s.pgp.reserved ++ s.pgp.free ++ y.map.map (·.2)).Nodup → u.pgp.reserved.Pairwise (· < ·)) ∧
        u.pgp.reclaims = min (s.pgp.reclaims + 1) 4294967295 ∧
        u.pgp.reclaimedPages = min (s.pgp.reclaimedPages + y.map.length) 4294967295 ∧
        u.pgp.pinnedTotal = s.pgp.pinnedTotal ∧ (dest ≠ v → u.layer v = none) ∧
        (u.track y.track).stack = (s.track y.track).stack ∧
        (u.track y.track).redo = (s.track y.track).redo.filter (· ≠ v) ∧
        (∀ w, w ≠ y.track → u.track w = s.track w) ∧ (∀ x, x ≠ dest → x ≠ v → u.layer x = s.layer x) ∧
        (∃ b, u.bne.active = some b ∧ b.dest = some dest) ∧
        (∀ n, s.hears n .layerReclaimed 1 = true → ∃ e ∈ (u.link n).events,
          e.body = .layerReclaimed v y.track y.serial (y.stamp.getD 0) y.map.length .bounce
            (s.freeCount + y.map.length)) ∧
        ∃ r ∈ (u.link lk).replies.getLast?, r.request = 0x11 ∧ r.tag = some tag ∧ r.code = .ok) ∧
  ∀ (s : State) (v : LayerId),
    s.victim = some v ↔ ∃ y, s.layer v = some y ∧ y.state = .parked ∧ y.pinned = false ∧
      ∀ w z, s.layer w = some z → z.state = .parked → z.pinned = false →
        y.stamp.getD 0 < z.stamp.getD 0 ∨ (y.stamp.getD 0 = z.stamp.getD 0 ∧ v ≤ w)

/-! ## Levels and settings -/

/-- R126, R74: BUS_LEVEL sets the level of the bus or buses named and MONITOR_SET the four monitor levels of an input,
each clamped to 256, in every timeline state and in hold. -/
def Obligations.BusAndMonitorLevelsAreSet : Prop :=
  (∀ (s : State) (lk : Link) (tag bus : Byte) (level : Word16),
    s.ready lk (.busLevel lk tag bus level) = true →
    let g := min level.toNat 256
    (bus = 0x00 → exec (.busLevel lk tag bus level) s = .next (s.served lk 0x12 tag .ok fun x =>
      x.withMxe { s.mxe with levelA := g })) ∧
    (bus = 0x01 → exec (.busLevel lk tag bus level) s = .next (s.served lk 0x12 tag .ok fun x =>
      x.withMxe { s.mxe with levelB := g })) ∧
    (bus = 0x02 → exec (.busLevel lk tag bus level) s = .next (s.served lk 0x12 tag .ok fun x =>
      x.withMxe { s.mxe with levelA := g, levelB := g }))) ∧
  ∀ (s : State) (lk : Link) (tag input : Byte) (a b c d : Word16) (i : Input),
    s.ready lk (.monitorSet lk tag input a b c d) = true → inputArg input = some i →
    exec (.monitorSet lk tag input a b c d) s = .next (s.served lk 0x13 tag .ok fun x =>
      x.withInput i { s.input i with nomA := min a.toNat 256, nomB := min b.toNat 256, takeA := min c.toNat 256,
                                     takeB := min d.toNat 256 })

/-- R186, R128, R191, R192: GRACE_SET, RETURN_SET, EVENTS_SET and QUIET_SET set the requesting station's own settings; a
QUIET_SET on begins quiet without ending one, and QUIET_SET off ends it as the taking of any other request does. -/
def Obligations.StationSettingsAreSet : Prop :=
  (∀ (s : State) (lk : Link) (tag grace : Byte), s.ready lk (.graceSet lk tag grace) = true →
    exec (.graceSet lk tag grace) s = .next (s.served lk 0x14 tag .ok fun x =>
      x.withStation lk { x.station lk with grace := min grace.toNat 200 })) ∧
  (∀ (s : State) (lk : Link) (tag ret : Byte) (r : ReturnSetting), s.ready lk (.returnSet lk tag ret) = true →
    returnArg ret = some r →
    exec (.returnSet lk tag ret) s = .next (s.served lk 0x15 tag .ok fun x =>
      x.withStation lk { x.station lk with ret := r })) ∧
  (∀ (s : State) (lk : Link) (tag : Byte) (kinds : BitVec 24), s.ready lk (.eventsSet lk tag kinds) = true →
    ∃ ks, exec (.eventsSet lk tag kinds) s = .next (s.served lk 0x16 tag .ok fun x =>
        x.withStation lk { x.station lk with subs := ks }) ∧ ks.Nodup ∧
      ∀ k : EventKind, k ∈ ks ↔ kinds.getLsbD (k.code - 1) = true) ∧
  (∀ (s : State) (lk : Link) (tag : Byte), s.ready lk (.quietSet lk tag 0x00) = true →
    exec (.quietSet lk tag 0x00) s = .next (s.served lk 0x17 tag .ok id)) ∧
  ∀ (s : State) (lk : Link) (tag : Byte), s.ready lk (.quietSet lk tag 0x01) = true →
    exec (.quietSet lk tag 0x01) s = .next (pushReply lk (s.firstReplyOf 0x17 tag .ok .none)
      ((popRequest lk s).withStation lk { s.station lk with quiet := true }))

/-! ## Hold, resume, limits, read-back and reset -/

/-- R151, R154, R21, R142: HOLD in ACTIVE makes the memory DRAINING with cause REQUEST, the station and the block,
stops the timeline (RUNNING to PAUSED at p = 0 with C kept), cancels the action queue, cuts every open pass, and asks
the bounce at work to suspend, and sends HOLD_STATE; in the other memory states it changes nothing. Both are answered
OK. (That HOLD_STATE is the last event of the block is log 20.) -/
def Obligations.HoldEntersDraining : Prop :=
  ∀ (s : State) (lk : Link) (tag : Byte), s.ready lk (.hold lk tag) = true →
    (s.tmc.mem ≠ .active → exec (.hold lk tag) s = .next (s.served lk 0x18 tag .ok id)) ∧
    (s.tmc.mem = .active → s.strokeDue = false →
      ∃ t, exec (.hold lk tag) s = .next t ∧
        t.tmc = { s.tmc with mem := .draining, holdCause := some .request, holdStation := some lk,
                             holdEntry := some s.cyc.block, holds := min (s.tmc.holds + 1) 4294967295 } ∧
        (s.cyc.state = .running →
          t.cyc.state = .paused ∧ t.cyc.pos = some 0 ∧ t.cyc.count = s.cyc.count ∧ t.aqu.queue = []) ∧
        (s.cyc.state = .unset ∨ s.cyc.state = .paused → t.cyc = s.cyc ∧ t.aqu = s.aqu) ∧
        (s.cyc.state = .counting → t.aqu.queue = [] ∧ t.cyc.taps = [] ∧
          (s.cyc.schedStart = none → t.cyc.state = .unset ∧ t.cyc.lastTap = none) ∧
          (s.cyc.schedStart ≠ none → t.cyc.state = .paused ∧ t.cyc.pos = some 0 ∧ t.cyc.count = 0)) ∧
        (∀ i p, t.pass i = some p → p.cut ≠ none) ∧
        t.bne = (if s.bne.engine = .scanning ∨ s.bne.engine = .committing then
          { s.bne with active := s.bne.active.map fun b => { b with suspendPending := true } } else s.bne) ∧
        t.mxe = s.mxe ∧ t.smn = s.smn ∧
        (∀ j, s.linkRuns j = true → ∃ e ∈ (t.link j).events.getLast?,
          e.body = .holdDraining .request (some lk) s.smn.supply s.smn.thermal t.cyc.state) ∧
        ∃ r ∈ (t.link lk).replies.getLast?, r.request = 0x18 ∧ r.tag = some tag ∧ r.code = .ok)

/-- R157: RESUME is refused WRONG_STATE unless the memory is RETAINING, COOLING in SCORCH or at a last reading of 90
degrees or above, LOW_SUPPLY in CRITICAL, in that order; else the memory becomes WAKING with cause RESUME until block N
+ 2. R167: SUPPLY_LIMITS clamps both limits to 3 300 to 16 000 mV, and takes both, answering them, where the critical
limit plus 200 does not exceed the thrift limit; else it is refused BAD_ARG. -/
def Obligations.ResumeAndLimitsAreChecked : Prop :=
  (∀ (s : State) (lk : Link) (tag : Byte), s.ready lk (.resume lk tag) = true →
    let result := exec (.resume lk tag) s
    let hot : Prop := s.smn.thermal = .scorch ∨ ∃ c, s.smn.temperature = some c ∧ 90 ≤ c
    (s.tmc.mem ≠ .retaining → result = .next (s.served lk 0x19 tag .wrongState id)) ∧
    (s.tmc.mem = .retaining → hot → result = .next (s.served lk 0x19 tag .cooling id)) ∧
    (s.tmc.mem = .retaining → ¬hot → s.smn.supply = .critical →
      result = .next (s.served lk 0x19 tag .lowSupply id)) ∧
    (s.tmc.mem = .retaining → ¬hot → s.smn.supply ≠ .critical →
      result = .next (s.served lk 0x19 tag .ok fun x =>
        x.withTmc { s.tmc with mem := .waking, wakeCause := some .resume,
                               wakeEnd := some ((s.cyc.block + 2) % 4294967296) }))) ∧
  (∀ (s : State) (lk : Link) (tag : Byte) (thrift critical : Word16),
    s.ready lk (.supplyLimits lk tag thrift critical) = true →
    let t := max 3300 (min 16000 thrift.toNat)
    let k := max 3300 (min 16000 critical.toNat)
    (t < k + 200 → exec (.supplyLimits lk tag thrift critical) s = .next (s.served lk 0x1A tag .badArg id)) ∧
    (k + 200 ≤ t → exec (.supplyLimits lk tag thrift critical) s = .next (s.served lk 0x1A tag .ok
      (fun x => x.withSmn { s.smn with thrift := t, critical := k }) (.limits t k))))

/-- R187, R66: each of the six read requests is answered OK with the record it names, in every state and in hold, and
changes nothing else. R187, R194: the records byte for byte, a field of 1, 2 or 4 bytes little-endian, a field that may
be absent behind its presence byte, a list behind its count, a temperature as one signed byte; the enumerations count
from 0 in the order their tables list them. Which field stands where and how wide it is, where R194 leaves that open,
and the values of flags and of FREE are log 23. That the records of READ_STATION and READ_HUB are those of the hub
after the request has left its queue is the model's choice (log 60). -/
def Obligations.ReadsAnswerTheRecord : Prop :=
  let n8 (n : Nat) : List Byte := [BitVec.ofNat 8 n]
  let n16 (n : Nat) : List Byte := [BitVec.ofNat 8 n, BitVec.ofNat 8 (n / 256)]
  let n32 (n : Nat) : List Byte :=
    [BitVec.ofNat 8 n, BitVec.ofNat 8 (n / 256), BitVec.ofNat 8 (n / 65536), BitVec.ofNat 8 (n / 16777216)]
  let opt (f : Nat → List Byte) (x : Option Nat) : List Byte := match x with
    | none => n8 0
    | some n => n8 1 ++ f n
  let many (xs : List (List Byte)) : List Byte := n8 xs.length ++ xs.flatten
  let flag (b : Bool) : List Byte := n8 (if b then 0 else 1)
  let temp (c : Option Int) : List Byte := match c with
    | none => n8 0
    | some x => n8 1 ++ [BitVec.ofInt 8 x]
  let stateOf (x : Option Layer) : List Byte := match x with
    | none => n8 0
    | some l => match l.state with
      | .recording => n8 1
      | .live => n8 2
      | .parked => n8 3
      | .forming => n8 4
  ((∀ c : Cyc, cycleRecord c = n8 c.state.code ++ opt n16 c.len ++ opt n8 c.beats ++
      opt n16 (c.len.map fun l => match c.beats with
        | some b => l / b
        | none => 0) ++
      n8 c.setting ++ opt n16 c.pos ++ n16 c.count ++ n32 c.block ++ many (c.taps.map n16) ++ opt n32 c.lastTap ++
      opt n32 c.schedStart ++ opt n32 c.measureStart) ∧
  (∀ (s : State) (t : TrackId),
    let r := s.track t
    let layers (ids : List LayerId) : List Byte := many (ids.map fun id => n8 id.val ++ stateOf (s.layer id))
    trackRecord s t = n8 r.state.code ++ opt n8 r.mult ++ opt n16 r.anchor ++ opt n32 (s.trackLen t) ++ n16 r.level ++
      flag r.mute ++ n8 r.route.code ++ layers r.stack ++ layers r.redo) ∧
  (layerRecord none = [0x00] ∧ ∀ l : Layer, layerRecord (some l) = stateOf (some l) ++ n8 l.track.val ++
      opt n8 (l.input.map (·.val)) ++ opt n32 l.length ++ n32 l.start ++ n32 l.written ++
      ((List.range 938).flatMap fun slot => opt n16 ((slotPage l.map slot).map (·.val))) ++ n16 l.map.length ++
      n16 l.level ++ flag l.pinned ++ n32 l.serial ++ opt n32 l.stamp) ∧
  (∀ s : State, poolRecord s = n16 s.pgp.free.length ++ opt n16 (s.pgp.free.head?.map (·.val)) ++
      n16 s.pgp.reserved.length ++ n16 s.pgp.pinnedTotal ++ n16 s.reclaimable ++
      n8 (allLayers.filter fun id => (s.layer id).any fun l => l.state = .parked).length ++
      n8 (allLayers.filter fun id => s.layer id = none).length ++ flag s.pgp.low ++ n16 s.pgp.lowest ++
      n32 s.pgp.reclaims ++ n32 s.pgp.reclaimedPages ++ n32 s.pgp.starved ++ n32 s.pgp.groupRefusals) ∧
  (∀ (s : State) (lk : Link),
    let r := s.link lk
    let k := r.counters
    let c := r.station
    let x := s.station lk
    let i := s.input lk
    let kinds (ks : List EventKind) : List Byte := many (ks.map fun e => n8 e.code)
    let assembly : List Byte := match r.assembly with
      | .outside => n8 0
      | .forward _ => n8 1
      | .passOver => n8 2
      | .hub _ _ => n8 3
    let pass : List Byte := match i.pass with
      | none => n8 2
      | some p => n8 p.state.code ++ n8 lk.val ++ n8 p.track.val ++ n8 p.kind.code ++ n8 p.layer.val ++ n32 p.start ++
          n8 p.snap ++ opt n32 p.close ++ n32 p.writePos ++ n8 p.backfill ++ opt n8 (p.cut.map (·.code)) ++ n32 p.order
    let action (a : Action) : List Byte := match a with
      | .transportStop => n8 0 ++ n8 0
      | .passOpen j _ => n8 1 ++ n8 j.val
      | .passClose j => n8 2 ++ n8 j.val
      | .layerUndo t => n8 3 ++ n8 t.val
      | .layerRedo t => n8 4 ++ n8 t.val
      | .trackClear t => n8 5 ++ n8 t.val
      | .trackMute t _ => n8 6 ++ n8 t.val
    let waiting : List Byte := match s.bne.waiting.find? fun w => w.station = lk with
      | none => n8 0
      | some w => n8 1 ++ n8 1 ++ n8 w.track.val ++ n8 w.count ++ n8 w.mode.code ++ [w.tag]
    let bounce : List Byte := match s.bne.active with
      | none => waiting
      | some b => if b.station = lk then
          n8 1 ++ n8 0 ++ n8 b.track.val ++ n8 b.count ++ n8 b.mode.code ++ [b.tag] else waiting
    let held (q : Bool) : Nat := if q then 1 else 0
    stationRecord s lk =
      n8 r.state.code ++ n8 r.bringUp ++ opt n32 r.recoverEnd ++ assembly ++ n8 r.requests.length ++
        n8 r.replies.length ++ n8 r.events.length ++ n8 (held r.ret.isSome) ++
        n8 (held r.fwd[0].isSome + held r.fwd[1].isSome) ++ n8 (held r.tx.isSome) ++ n8 r.lastFwd.val ++
        n32 k.joins ++ n32 k.parity ++ n32 k.silence ++ n32 k.breaks ++ n32 k.badCode ++ n32 k.strayEnd ++
        n32 c.queued ++ n32 c.busy ++ n32 c.unknown ++ n32 c.malformed ++ n32 c.faultEnded ++ n32 c.unanswered ++
        n32 c.forwardedFrom ++ n32 c.routeFails ++ n32 c.forwardedTo ++ n32 c.skips ++
      n8 x.grace ++ kinds x.subs ++ n8 x.ret.code ++ flag x.quiet ++ kinds x.pendingKinds ++ flag x.missed ++
        n32 x.dropped ++
      flag i.present ++ n32 i.stored ++ n32 i.replaced ++ n32 i.early ++ n32 i.late ++ n32 i.dropouts ++ n16 i.nomA ++
        n16 i.nomB ++ n16 i.takeA ++ n16 i.takeB ++ pass ++
      many ((s.aqu.queue.filter fun e => e.station = lk).map fun e =>
        action e.action ++ [e.tag] ++ n32 e.due ++ n32 e.arrival) ++ bounce) ∧
  ∀ s : State,
    let m := s.mxe
    let t := s.tmc
    let w := s.smn
    hubRecord s =
      n32 s.cyc.block ++ n8 s.rqu.pointer.val ++ n8 s.aqu.queue.length ++ n32 s.aqu.arrivals ++ n32 s.aqu.fulls ++
      n16 m.levelA ++ n16 m.levelB ++ n8 m.played.length ++ flag m.shed ++ n16 m.clipA ++ n16 m.clipB ++
        opt n32 m.lastClipA ++ opt n32 m.lastClipB ++ n32 m.hardStops ++ n32 m.shedBlocks ++ n8 m.lastMix.candidates ++
        n8 m.lastMix.cap ++ n8 m.lastMix.admitted ++ n8 m.lastMix.leaving ++ n8 m.lastMix.read ++
      n8 s.bne.engine.code ++
        (match s.bne.active with
         | none => n8 0
         | some b => n8 1 ++ n8 b.track.val ++ n8 b.count ++ n8 b.mode.code ++ n8 b.station.val ++ n16 b.done ++
             n16 b.total ++ n32 b.peak ++ n32 b.clips) ++
        many (s.bne.waiting.map fun y =>
          n8 y.track.val ++ n8 y.count ++ n8 y.mode.code ++ n8 y.station.val ++ [y.tag]) ++
      n8 t.mem.code ++ opt n8 (t.holdCause.map (·.code)) ++ opt n8 (t.holdStation.map (·.val)) ++ opt n32 t.holdEntry ++
        opt n8 (t.wakeCause.map (·.code)) ++ opt n32 t.wakeEnd ++ n8 t.refresh ++ n16 t.credit ++
        n8 t.account.writes ++ n8 t.account.refresh ++ n8 t.account.voices ++ n8 t.account.spare ++ n32 t.holds ++
        n32 t.drained ++ n32 t.stalls ++
      n8 w.phase ++ opt n16 w.battery ++ temp w.temperature ++ n8 w.supply.code ++ n8 w.thermal.code ++ n16 w.thrift ++
        n16 w.critical ++ opt n16 w.lowest ++ temp w.highest ++ n32 w.changes) ∧
  ([TlState.unset, .counting, .measuring, .running, .paused].map (·.code) = [0, 1, 2, 3, 4] ∧
    [TrackState.empty, .opening, .looping].map (·.code) = [0, 1, 2] ∧
    [Route.none, .a, .b, .both].map (·.code) = [0, 1, 2, 3] ∧
    [PassState.writing, .spillWait].map (·.code) = [0, 1] ∧
    [PassKind.measure, .opening, .fixed].map (·.code) = [0, 1, 2] ∧
    [CutCause.starved, .link, .stop, .hold, .closed].map (·.code) = [0, 1, 2, 3, 4] ∧
    [BounceMode.scan, .commit].map (·.code) = [0, 1] ∧
    [Engine.idle, .scanning, .committing, .suspended].map (·.code) = [0, 1, 2, 3] ∧
    [MemState.active, .draining, .retaining, .waking].map (·.code) = [0, 1, 2, 3] ∧
    [HoldCause.request, .critical, .scorch].map (·.code) = [0, 1, 2] ∧
    [WakeCause.resume, .reset].map (·.code) = [0, 1] ∧
    [Supply.normal, .thrift, .critical].map (·.code) = [0, 1, 2] ∧
    [Thermal.cool, .hot, .scorch].map (·.code) = [0, 1, 2] ∧
    [LinkState.listen, .join, .run, .recover].map (·.code) = [0, 1, 2, 3] ∧
    [ReturnSetting.none, .a, .b].map (·.code) = [0, 1, 2]) ∧
  ∀ (s : State) (lk : Link) (tag : Byte),
    (s.ready lk (.readCycle lk tag) = true →
      exec (.readCycle lk tag) s = .next (s.served lk 0x1B tag .ok id (.record (cycleRecord s.cyc)))) ∧
    (∀ track t, s.ready lk (.readTrack lk tag track) = true → trackArg track = some t →
      exec (.readTrack lk tag track) s = .next (s.served lk 0x1C tag .ok id (.record (trackRecord s t)))) ∧
    (∀ layer l, s.ready lk (.readLayer lk tag layer) = true → layerArg layer = some l →
      exec (.readLayer lk tag layer) s = .next (s.served lk 0x1D tag .ok id (.record (layerRecord (s.layer l))))) ∧
    (s.ready lk (.readPool lk tag) = true →
      exec (.readPool lk tag) s = .next (s.served lk 0x1E tag .ok id (.record (poolRecord s)))) ∧
    (∀ station n, s.ready lk (.readStation lk tag station) = true → stationArg station = some n →
      exec (.readStation lk tag station) s =
        .next (s.served lk 0x1F tag .ok id (.record (stationRecord (taken lk true s) n)))) ∧
    (s.ready lk (.readHub lk tag) = true →
      exec (.readHub lk tag) s = .next (s.served lk 0x20 tag .ok id (.record (hubRecord (taken lk true s)))))

/-- R188, R22, R50, R67, R93, R108, R131, R145, R160, R169, R182: HUB_RESET returns every block but the links to its
HUB_RESET values in the block in which it is taken, with N, the measurement phase, the readings, the supply and thermal
states and the request queues kept, and answers OK last. The model's own readings of it: the states the mix engine holds
stay (log 36), an aborted pass is marked as ended in the block (log 38), the stroke buffer is silence (log 7), and the
event fields of the last period stay (log 9). -/
def Obligations.HubResetKeepsTheLinks : Prop :=
  ∀ (s : State) (lk : Link) (tag : Byte), s.ready lk (.hubReset lk tag) = true →
    ∃ t, exec (.hubReset lk tag) s = .next t ∧
      t.cyc = { Cyc.reset with block := s.cyc.block, last := s.cyc.last } ∧ t.lys = Lys.reset ∧ t.pgp = Pgp.reset ∧
      (∀ i, t.input i = { InputRec.reset with endedHere := (s.pass i).isSome || (s.input i).endedHere }) ∧
      t.pse.openings = 0 ∧ t.aqu = Aqu.reset ∧ t.bne = Bne.reset ∧
      t.mxe = { Mxe.reset with supply := s.mxe.supply, thermal := s.mxe.thermal } ∧
      t.smn = { s.smn with thrift := 6600, critical := 6000, lowest := s.smn.battery, highest := s.smn.temperature,
                           changes := 0 } ∧
      t.tmc.credit = 0 ∧ t.tmc.holds = 0 ∧ t.tmc.drained = 0 ∧ t.tmc.stalls = 0 ∧ t.tmc.account = ⟨0, 0, 0, 0⟩ ∧
      t.tmc.refresh = (match s.smn.thermal with
        | .cool => 2
        | .hot => 4
        | .scorch => 4) ∧
      (s.tmc.mem = .active ∨ s.tmc.mem = .draining →
        t.tmc.mem = .active ∧ t.tmc.holdCause = none ∧ t.tmc.holdStation = none ∧ t.tmc.holdEntry = none ∧
          t.tmc.wakeCause = none ∧ t.tmc.wakeEnd = none) ∧
      (s.tmc.mem = .retaining ∨ s.tmc.mem = .waking →
        t.tmc.mem = .waking ∧ t.tmc.holdCause = s.tmc.holdCause ∧ t.tmc.holdStation = s.tmc.holdStation ∧
          t.tmc.holdEntry = s.tmc.holdEntry ∧ t.tmc.wakeCause = some .reset ∧
          t.tmc.wakeEnd = (if s.tmc.mem = .retaining then some ((s.cyc.block + 2) % 4294967296)
                           else s.tmc.wakeEnd)) ∧
      t.mem = s.mem ∧ t.rqu.pointer = lk ∧
      (∀ j, t.station j = Settings.reset ∧ (t.link j).state = (s.link j).state ∧
        (t.link j).requests = (if j = lk then (s.link j).requests.tail else (s.link j).requests) ∧
        (t.link j).fwd = (s.link j).fwd ∧ (t.link j).tx = (s.link j).tx ∧ (t.link j).ret = (s.link j).ret ∧
        (t.link j).counters = LinkCounters.zero ∧ (t.link j).station = StationCounters.zero) ∧
      (∀ j, s.linkRuns j = true → s.tmc.mem ≠ .draining →
        (t.link j).events = [⟨.hubRestarted lk s.cyc.block t.tmc.mem, t.info, false, true⟩]) ∧
      ∃ r ∈ (t.link lk).replies.getLast?, r.request = 0x21 ∧ r.tag = some tag ∧ r.code = .ok ∧ r.completion = false

/-! ## The steps of the timeline and the passes -/

/-- R9, R16: at the scheduled start a counted-in timeline becomes RUNNING at p = 0 and C = 0, the scheduled start and
the intervals go, and the marks are sent; at any other time the command changes nothing (log 1). R13, R12, R87: a
measuring pass that has written Lmax(B) blocks is closed with m = Lmax(B): L = m, C = 1, p = 0, the track LOOPING with k
= 1, the marks sent, and the pass waits for its spill, its write position staying as it is (log 46). R18: in a
block of which a stop or a hold is known the marks are withheld (log 43). -/
def Obligations.TimelineMovesByItself : Prop :=
  let marked (s : State) (l b : Nat) (x : State) : State :=
    if s.leavesRunning then x.withCyc { x.cyc with withheld := true }
    else emit (.cycleMark l b) (emit (.beatMark 0) x)
  (∀ s : State, s.stopped = false → s.endSettled = true →
    (∀ l b, s.cyc.state = .counting → s.cyc.schedStart = some s.cyc.block → s.cyc.len = some l →
      s.cyc.beats = some b →
      exec .scheduledStart s = .next (marked s l b (s.withCyc
        { s.cyc with state := .running, pos := some 0, count := 0, schedStart := none, taps := [] }))) ∧
    (s.cyc.state ≠ .counting ∨ s.cyc.schedStart ≠ some s.cyc.block → exec .scheduledStart s = .next s)) ∧
  (∀ (s : State) (i : Input) (p : Pass) (l : Layer) (n0 : Nat), s.stopped = false → s.endSettled = true →
    s.pass i = some p → p.kind = .measure → p.state = .writing → p.cut = none → p.close = none →
    (∀ j q, j ≠ i → s.pass j = some q → q.kind ≠ .measure) → s.layer p.layer = some l →
    s.cyc.state = .measuring → s.cyc.measureStart = some n0 → 1 ≤ s.cyc.setting → s.cyc.setting ≤ 16 →
    diff32 s.cyc.block n0 = lmax s.cyc.setting →
    let len := 30000 / s.cyc.setting * s.cyc.setting
    exec .measureAutoClose s = .next
      (((((marked s len s.cyc.setting (s.withCyc
        { s.cyc with state := .running, len := some len, beats := some s.cyc.setting, pos := some 0, count := 1,
                     measureStart := none })).withTrack p.track
        { s.track p.track with state := .looping, mult := some 1 }).withLayer p.layer
        (some { l with length := some (1 * len) })).withPass i
        (some { p with state := .spillWait, close := some len, spillReady := false }))))

/-- R85, R86, R34: an OPEN pass without a close at its eighth cycle boundary closes with k = 8; one whose close was
carried forward closes at the next boundary with k the whole cycles since its start; the track becomes LOOPING, the
layer's length k L, and the pass waits for its spill, its write position staying as it is (log 46). Where neither is
due the command changes nothing (the model's choice, log 1). -/
def Obligations.OpenPassClosesOnTheBoundary : Prop :=
  ∀ (s : State) (i : Input) (p : Pass) (l : Layer) (len a : Nat), s.stopped = false → s.endSettled = true →
    s.pass i = some p → p.kind = .opening → p.state = .writing → p.cut = none → s.layer p.layer = some l →
    l.length = none → s.cyc.state = .running → s.cyc.pos = some 0 → s.cyc.len = some len →
    (s.track p.track).anchor = some a →
    let k := (s.cyc.count + (53760 - a % 53760)) % 53760
    let closed (k : Nat) : State :=
      ((s.withTrack p.track { s.track p.track with state := .looping, mult := some k }).withLayer p.layer
        (some { l with length := some (k * len) })).withPass i
        (some { p with state := .spillWait, close := some (k * len), spillReady := false })
    (p.close = none → k = 8 → exec (.openPassEighthBoundary i) s = .next (closed 8)) ∧
    (p.close = none → k < 8 → exec (.openPassEighthBoundary i) s = .next s) ∧
    (p.close ≠ none → 1 ≤ k → exec (.carriedClose i) s = .next (closed k)) ∧
    (p.close ≠ none → k = 0 → exec (.carriedClose i) s = .next s)

/-- R84, R87, R83, R33, R92: a WRITING pass whose written count is its layer's length waits for its spill; once the
spill, the newest block of the ring, has been resolved, it is blended into the head block, the layer becomes LIVE, and
the pass ends COMPLETE with PASS_ENDED in the block of the spill. That the write position stays while it waits is log
46. Where the end is not reached the command changes nothing (the model's choice, log 1); the mark that the spill has
been resolved and the event fields of the period just ended are the model's own (log 9). -/
def Obligations.PassEndsWithItsSpill : Prop :=
  (∀ (s : State) (i : Input) (p : Pass) (l : Layer), s.stopped = false → s.pass i = some p → p.state = .writing →
    p.cut = none → s.layer p.layer = some l →
    (l.length = some l.written →
      exec (.passReachesEnd i) s = .next (s.withPass i (some { p with state := .spillWait, spillReady := false }))) ∧
    (l.length ≠ some l.written → exec (.passReachesEnd i) s = .next s)) ∧
  ∀ (s : State) (i : Input) (p : Pass) (l : Layer) (pg : Page), s.stopped = false → s.pass i = some p →
    p.state = .spillWait → p.spillReady = true → s.layer p.layer = some l →
    slotPage l.map (p.start / 256) = some pg →
    let head := readBlock s.mem pg (p.start % 256)
    let spill := (s.input i).ring.getD 0 silence
    let live : Layer := { l with state := .live }
    exec (.spillBlend i) s = .next (emitAt s.cyc.last
      (passEndedBody i p (some live) s.cyc.len .complete none l.written)
      (((s.withMem (writeBlock s.mem pg (p.start % 256) (seamBlend head spill))).withLayer p.layer
        (some live)).withPass i none))

/-- R83, R88, R193: the frames of the seam blend, of the fade-in and of the fade-out, and the rounding half away from
zero that they share; a sample is three bytes, little-endian two's complement, the least significant first, in the
packets and, as the model's choice (log 6), in take memory; a block is its samples' bytes in the order of the frames.
R51: block j of a page stands in its bytes 144 j to 144 j + 143; a block written there changes no other byte, and read
back it is the block. A return packet is its address, type, bus and stamp bytes and then its 48 samples. -/
def Obligations.StoredBlocksAreExact : Prop :=
  ((∀ (h x : Block) (f : Nat) (v w : Int), h[f]? = some v → x[f]? = some w → f < 48 →
    (seamBlend h x)[f]? = some (roundAway (v * (f + 1) + w * (47 - f)) 48)) ∧
  (∀ (b : Block) (f : Nat) (v : Int), b[f]? = some v → f < 48 →
    (fadeIn b)[f]? = some (roundAway (v * (f + 1)) 48) ∧ (fadeOut b)[f]? = some (roundAway (v * (47 - f)) 48)) ∧
  ∀ (n : Int) (d : Nat), 0 < d →
    2 * (roundAway n d * d - n).natAbs ≤ d ∧ (2 * (roundAway n d * d - n).natAbs = d → n.natAbs < (roundAway n d * d).natAbs)) ∧
  (∀ x : Int, -8388608 ≤ x → x ≤ 8388607 →
    sampleBytes x = [BitVec.ofInt 8 x, BitVec.ofInt 8 (x / 256), BitVec.ofInt 8 (x / 65536)] ∧
    bytesSample (BitVec.ofInt 8 x) (BitVec.ofInt 8 (x / 256)) (BitVec.ofInt 8 (x / 65536)) = x) ∧
  (∀ (m : List Host.Cell) (p : Page) (j : Nat) (b : Block), b.length = 48 → j < 256 →
    let bytes := b.flatMap sampleBytes
    bytes.length = 144 ∧
    (∀ n, n < 144 → readByte (writeBlock m p j b) (p.val * 36864 + j * 144 + n) = bytes.getD n 0) ∧
    (∀ a, a < p.val * 36864 + j * 144 ∨ p.val * 36864 + j * 144 + 144 ≤ a →
      readByte (writeBlock m p j b) a = readByte m a) ∧
    ((∀ x ∈ b, -8388608 ≤ x ∧ x ≤ 8388607) → bytesBlock bytes = b ∧ readBlock (writeBlock m p j b) p j = b)) ∧
  ∀ r : ReturnBlock, r.samples.length = 48 →
    r.bytes = [0x00, 0x83, if r.bus = .a then 0 else 1, BitVec.ofNat 8 r.stamp] ++ r.samples.flatMap sampleBytes

/-- R88, R89, R80, R33, R92: a cut pass ends in the period in which its backfill does, CUT with its cause: the last
copies are made from the ring, the ends of what is written take the ramps, a single block both, and its layer becomes
LIVE; with nothing written the layer is freed. CUT_BACKFILL_END makes that end where no more than 8 copies are left,
and changes nothing where there are more (the model's choice, log 1; that the command or else the boundary makes it,
log 9). R89, R111: the boundary of that period makes it before the mix, and one that leaves copies to make keeps the
pass open. -/
def Obligations.CutPassEndsAfterItsBackfill : Prop :=
  (∀ (s : State) (i : Input) (p : Pass) (l : Layer) (c : CutCause), s.stopped = false → s.settled = true →
    s.pass i = some p → p.cut = some c → s.layer p.layer = some l →
    (8 < p.backfill → exec (.cutBackfillEnd i) s = .next s) ∧
    (p.backfill ≤ 8 →
      let len := l.length.getD 240000
      let copied : List Host.Cell := (List.range p.backfill).foldl (fun m j =>
        let n := p.snap - p.backfill + j
        let q := (p.start + n) % len
        match slotPage l.map (q / 256) with
        | some x => writeBlock m x (q % 256) ((s.input i).ring.getD (p.snap - n + n / 8 - 1) silence)
        | none => m) s.mem
      let ended (mem : List Host.Cell) : State :=
        emit (passEndedBody i p (some l) s.cyc.len .cut (some c) l.written)
          (((s.withMem mem).withLayer p.layer (some { l with state := .live })).withInput i
            { s.input i with pass := none, endedHere := true })
      (l.written = 0 → ∃ t, exec (.cutBackfillEnd i) s = .next t ∧ t.pass i = none ∧ t.layer p.layer = none ∧
        t.mem = copied ∧ t.pgp.free = s.pgp.free ++ l.map.map (·.2) ∧
        ∀ j, s.hears j .passEnded 4 = true → ∃ e ∈ (t.link j).events,
          e.body = passEndedBody i p (some l) s.cyc.len .cut (some c) 0) ∧
      ∀ pg, slotPage l.map (l.start / 256) = some pg →
        (l.written = 1 → exec (.cutBackfillEnd i) s = .next (ended (writeBlock copied pg (l.start % 256)
          (fadeOut (fadeIn (readBlock copied pg (l.start % 256))))))) ∧
        ∀ pg', 2 ≤ l.written → slotPage l.map ((l.start + l.written - 1) % len / 256) = some pg' →
          let tail := (l.start + l.written - 1) % len
          let mem1 := writeBlock copied pg' (tail % 256) (fadeOut (readBlock copied pg' (tail % 256)))
          exec (.cutBackfillEnd i) s = .next (ended
            (writeBlock mem1 pg (l.start % 256) (fadeIn (readBlock mem1 pg (l.start % 256))))))) ∧
  ∀ (order : List Input) (s : State) (i : Input) (p : Pass) (l : Layer) (c : CutCause), s.stopped = false →
    s.settled = true → s.triggerOverdue = false → s.bne.active = none → s.pass i = some p →
    (∀ j, j ≠ i → s.pass j = none) → p.state = .writing → p.cut = some c → s.layer p.layer = some l →
    (8 < p.backfill → ∃ t, exec (.blockBoundary order) s = .next t ∧
      t.pass i = some { p with backfill := p.backfill - 8 } ∧ t.layer p.layer = some l) ∧
    (p.backfill ≤ 8 → 1 ≤ l.written → ∃ t, exec (.blockBoundary order) s = .next t ∧ t.pass i = none ∧
      t.layer p.layer = some { l with state := .live } ∧ t.pgp = s.pgp ∧
      (∀ j, s.hears j .passEnded 4 = true → ∃ e ∈ (t.link j).events, e.info = s.info ∧
        e.body = passEndedBody i p (some l) s.cyc.len .cut (some c) l.written) ∧
      t.mxe.lastMix.candidates =
        (allLayers.filter (s.withLayer p.layer (some { l with state := .live })).sounds).length)

/-! ## The steps of the queue and the bounce -/

/-- R103, R104: at its due block the front entry leaves the queue and is executed by its owner against the state as it
is; its completion reply goes to its station with its tag; a TRACK_MUTE entry sets its track's mute and is answered
DONE. R141, R135: where the entry aborts the bounce, the waiting list advances after it. Of two TRACK_MUTE entries due
in one block the second meets the state the first has left. R103, R106: a TRANSPORT_STOP entry ends the entries behind
it, which are cancelled before its own reply. R105: a PASS_CLOSE entry closes the pass it was taken against, named by
its layer and that layer's serial, and is answered NO_PASS where the input has no pass or another one. (That the
CANCELLED replies precede the stop's own is log 22, and that a second stop of a block gives the run-out positions anew
log 44.) -/
def Obligations.DueEntryIsExecuted : Prop :=
  ∀ (s : State) (e : Entry) (rest : List Entry), s.stopped = false → s.endSettled = true → s.startDue = false →
    s.aqu.queue = e :: rest → e.due = s.cyc.block →
    let s1 := s.withAqu { s.aqu with queue := rest }
    ((∀ x ∈ rest, x.due ≠ s.cyc.block) → exec .dueEntryExecute s =
      .next (advanceQueue (reply e.station e.action.code e.tag true (execEntry e s1).2 .none (execEntry e s1).1))) ∧
    (s.advanceDue = false → (∀ x ∈ rest, x.due ≠ s.cyc.block) → ∀ t on, e.action = .trackMute t on →
      exec .dueEntryExecute s =
        .next (reply e.station 0x0A e.tag true .done .none (s1.withTrack t { s.track t with mute := on }))) ∧
    (s.advanceDue = false → ∀ e2 rest2 t on t2 on2, rest = e2 :: rest2 → e2.due = s.cyc.block →
      (∀ x ∈ rest2, x.due ≠ s.cyc.block) → e.action = .trackMute t on → e2.action = .trackMute t2 on2 →
      exec .dueEntryExecute s =
        (let s2 := (s.withAqu { s.aqu with queue := rest2 }).withTrack t { s.track t with mute := on }
         .next (reply e2.station 0x0A e2.tag true .done .none
          ((reply e.station 0x0A e.tag true .done .none s2).withTrack t2 { s2.track t2 with mute := on2 })))) ∧
    (s.advanceDue = false → s.cyc.state = .running → e.action = .transportStop →
      exec .dueEntryExecute s = .next (reply e.station 0x03 e.tag true .done .none
        (cancelQueue (cutAll .stop true (s1.withCyc
          { s.cyc with state := .paused, pos := some 0, runOut := some s.loopPositions, withheld := false })))) ∧
      ∃ t, exec .dueEntryExecute s = .next t ∧ t.aqu.queue = []) ∧
    (∀ i id serial, e.action = .passClose i → e.passLayer = some (id, serial) →
      (s.pass i = none ∨ (∃ p, s.pass i = some p ∧
          (p.layer ≠ id ∨ ∀ l, s.layer p.layer = some l → l.serial ≠ serial)) →
        execEntry e s1 = (s1, .noPass)) ∧
      ∀ p l, s.pass i = some p → p.layer = id → s.layer id = some l → l.serial = serial →
        execEntry e s1 = execClose i 0 s1)

/-- R137, R138, R139, R140: a stroke of a SCAN whose cost the credit covers completes: the credit falls by its cost,
its sums stand saturated in the stroke buffer, peak and clip frames are brought up to date, and the next stroke is in
flight; with the last one the scan ends COMPLETE, the engine IDLE, the credit 0, and the owed reply DONE is sent. The
bounce sum of a frame is the sum over the sources of floor(s gl / 256), a source whose written span does not hold the
position giving 0. R61, R137: a stroke of a COMMIT writes its saturated sums to the destination at the same positions,
whose slot takes the lowest reserved page where it has none; the reservation stays strictly ascending. R142: a
suspension pending takes effect with the stroke, in place of the next. R36, R139: with the last stroke of a COMMIT the
sources are freed, bottom first, and the destination becomes LIVE at the bottom of the stack; that the track is not
tested for EMPTY between is the model's choice (log 51). R141, R62: an undo of a source aborts the bounce, a COMMIT's
destination being freed and its reservation returned, with CANCELLED where a reply is owed. -/
def Obligations.StrokeOfAScanCompletes : Prop :=
  (∀ (s : State) (b : Bounce) (n cost k l : Nat), s.stopped = false → s.endSettled = true → s.bne.active = some b →
    b.mode = .scan → b.dest = none → b.stroke = some (n, cost) → (s.track b.track).mult = some k →
    s.cyc.len = some l → b.suspendPending = false →
    let len := k * l
    let span := min 32 (len - 32 * n)
    let sums := (List.range span).map fun j => bounceSum s b.sources (32 * n + j)
    let done : Bounce :=
      { b with done := b.done + 1, peak := sums.foldl (fun m x => x.foldl (fun m v => max m v.natAbs) m) b.peak,
               clips := b.clips + (sums.map fun x =>
                 (x.filter fun v => v < -8388608 ∨ 8388607 < v).length).sum }
    let buffer := sums.map (·.map saturate) ++ s.bne.buffer.drop span
    (s.tmc.credit < cost → exec .bounceStrokeComplete s = .next s) ∧
    (cost ≤ s.tmc.credit → b.done + 1 ≠ b.total →
      exec .bounceStrokeComplete s = .next ((s.withTmc { s.tmc with credit := s.tmc.credit - cost }).withBne
        { s.bne with
          buffer := buffer,
          active := some { done with stroke := some (b.done + 1, b.count * min 32 (len - 32 * (b.done + 1))) } })) ∧
    (cost ≤ s.tmc.credit → b.done + 1 = b.total → b.owed = true →
      exec .bounceStrokeComplete s = .next
        (((reply b.station 0x11 b.tag true .done (.bounce done.peak done.clips none)
          (emit (.bounceEnded b.track b.count .scan none b.station done.done b.total done.peak done.clips none)
            s)).withBne { engine := .idle, active := none, waiting := s.bne.waiting, buffer := buffer }).withTmc
          { s.tmc with credit := 0 }))) ∧
  (∀ (s : State) (sources : List Source) (pos f : Nat), f < 48 →
    (bounceSum s sources pos).getD f 0 = (sources.map fun x =>
      match s.layer x.layer with
      | none => 0
      | some l =>
        if (pos + l.length.getD 240000 - l.start) % l.length.getD 240000 < l.written then
          (storedBlock s l.map pos).getD f 0 * x.level / 256
        else 0).sum) ∧
  (∀ (s : State) (b : Bounce) (n cost k l : Nat) (dest : LayerId) (d : Layer) (pg : Page) (reserved : List Page)
    (map : List (Nat × Page)), s.stopped = false → s.endSettled = true → s.bne.active = some b → b.mode = .commit →
    b.dest = some dest → b.stroke = some (n, cost) → (s.track b.track).mult = some k → s.cyc.len = some l →
    s.layer dest = some d → cost ≤ s.tmc.credit → 32 * n < k * l →
    (slotPage d.map (32 * n / 256) = some pg ∧ reserved = s.pgp.reserved ∧ map = d.map ∨
      slotPage d.map (32 * n / 256) = none ∧ s.pgp.reserved = pg :: reserved ∧
        map = putSlot (32 * n / 256) pg d.map) →
    let len := k * l
    let span := min 32 (len - 32 * n)
    let sums := (List.range span).map fun j => bounceSum s b.sources (32 * n + j)
    let done : Bounce :=
      { b with done := b.done + 1, peak := sums.foldl (fun m x => x.foldl (fun m v => max m v.natAbs) m) b.peak,
               clips := b.clips + (sums.map fun x =>
                 (x.filter fun v => v < -8388608 ∨ 8388607 < v).length).sum }
    let buffer := sums.map (·.map saturate) ++ s.bne.buffer.drop span
    let mem : List Host.Cell := (List.range span).foldl (fun m j =>
      writeBlock m pg ((32 * n + j) % 256) ((bounceSum s b.sources (32 * n + j)).map saturate)) s.mem
    let written : Layer := { d with written := d.written + span, map := map }
    let next (engine : Engine) (active : Bounce) : State :=
      ((((s.withTmc { s.tmc with credit := s.tmc.credit - cost }).withBne
        { s.bne with engine := engine, buffer := buffer, active := some active }).withPgp
        { s.pgp with reserved := reserved }).withLayer dest (some written)).withMem mem
    (s.pgp.reserved.Pairwise (· < ·) → reserved.Pairwise (· < ·) ∧
      (slotPage d.map (32 * n / 256) = none → ∀ x ∈ reserved, pg < x)) ∧
    (b.done + 1 ≠ b.total → b.suspendPending = false →
      exec .bounceStrokeComplete s = .next (next s.bne.engine
        { done with stroke := some (b.done + 1, (b.count + 1) * min 32 (len - 32 * (b.done + 1))) })) ∧
    (b.done + 1 ≠ b.total → b.suspendPending = true →
      exec .bounceStrokeComplete s = .next (next .suspended { done with stroke := none, suspendPending := false })) ∧
    ∀ above, b.done + 1 = b.total → (s.track b.track).stack = b.sources.map (·.layer) ++ above →
      (s.track b.track).stack.Nodup → dest ∉ (s.track b.track).stack →
      (∀ x ∈ b.sources, x.layer ∉ (s.track b.track).redo ∧
        ∃ y, s.layer x.layer = some y ∧ y.track = b.track ∧ y.pinned = false) →
      ∃ t, exec .bounceStrokeComplete s = .next t ∧
        t.bne = { engine := .idle, active := none, waiting := s.bne.waiting, buffer := buffer } ∧
        t.tmc = { s.tmc with credit := 0 } ∧ t.mem = mem ∧
        t.track b.track = { s.track b.track with stack := dest :: above } ∧
        (∀ u, u ≠ b.track → t.track u = s.track u) ∧ t.layer dest = some { written with state := .live } ∧
        (∀ x ∈ b.sources, t.layer x.layer = none) ∧
        (∀ id, id ≠ dest → (∀ x ∈ b.sources, x.layer ≠ id) → t.layer id = s.layer id) ∧
        t.pgp.free = s.pgp.free ++ (b.sources.flatMap fun x =>
          ((s.layer x.layer).map fun y => y.map.map (·.2)).getD []) ∧
        t.pgp.reserved = reserved ∧ t.pgp.pinnedTotal = s.pgp.pinnedTotal ∧ t.cyc = s.cyc ∧ t.pse = s.pse ∧
        (∀ j, s.hears j .bounceEnded 1 = true → ∃ e ∈ (t.link j).events, e.info = s.info ∧
          e.body = .bounceEnded b.track b.count .commit none b.station done.done b.total done.peak done.clips
            (some (dest, d.serial))) ∧
        (b.owed = true → s.linkRuns b.station = true → ∃ r ∈ (t.link b.station).replies.getLast?,
          r.request = 0x11 ∧ r.tag = some b.tag ∧ r.completion = true ∧ r.code = .done ∧
            r.payload = .bounce done.peak done.clips (some (dest, d.serial)))) ∧
  (∀ (s : State) (b : Bounce) (n cost : Nat), s.stopped = false → s.endSettled = true → s.bne.active = some b →
    b.mode = .scan → b.dest = none → b.stroke = some (n, cost) → b.suspendPending = true → cost ≤ s.tmc.credit →
    b.done + 1 ≠ b.total →
    ∃ t a, exec .bounceStrokeComplete s = .next t ∧ t.tmc = { s.tmc with credit := s.tmc.credit - cost } ∧
      t.bne.engine = .suspended ∧ t.bne.active = some a ∧ a.stroke = none ∧ a.suspendPending = false ∧
      a.done = b.done + 1 ∧ a.sources = b.sources ∧ t.bne.waiting = s.bne.waiting) ∧
  ∀ (s : State) (lk : Link) (tag track quantize : Byte) (mode : Quantize) (t : TrackId) (b : Bounce)
    (rest : List LayerId) (top : LayerId) (l : Layer),
    s.ready lk (.layerUndo lk tag track quantize) = true → s.inHold = false → trackArg track = some t →
    quantizeArg quantize = some mode → s.pendingSame lk (.layerUndo t) = none →
    mode = .now ∨ s.cyc.state ≠ .running → s.newestPass t = none → (s.track t).stack = rest ++ [top] → top ∉ rest →
    s.layer top = some l → l.track = t → (s.track t).redo.length < 12 → s.lys.parks < 4294967295 →
    s.bne.active = some b → s.isSource top = true →
    (∀ dest d, b.dest = some dest → s.layer dest = some d →
      dest ∉ (s.track d.track).stack ∧ dest ∉ (s.track d.track).redo) →
    ∃ u, exec (.layerUndo lk tag track quantize) s = .next u ∧
      u.bne = { s.bne with engine := .idle, active := none } ∧ u.tmc = { s.tmc with credit := 0 } ∧
      u.track t = { s.track t with stack := rest, redo := (s.track t).redo ++ [top] } ∧
      u.layer top = some { l with state := .parked, stamp := some s.lys.parks } ∧
      (b.dest = none → u.pgp = s.pgp) ∧
      (∀ dest d, b.dest = some dest → s.layer dest = some d → u.layer dest = none ∧
        u.pgp.free = s.pgp.free ++ d.map.map (·.2) ++ s.pgp.reserved ∧ u.pgp.reserved = []) ∧
      (∀ j, s.hears j .bounceEnded 1 = true → ∃ e ∈ (u.link j).events, e.info = s.info ∧
        e.body = .bounceEnded b.track b.count b.mode (some .undo) b.station b.done b.total b.peak b.clips none) ∧
      (b.owed = true → s.linkRuns b.station = true → ∃ r ∈ (u.link b.station).replies,
        r.request = 0x11 ∧ r.tag = some b.tag ∧ r.completion = true ∧ r.code = .cancelled ∧
          r.payload = .bounce b.peak b.clips none) ∧
      ∃ r ∈ (u.link lk).replies.getLast?, r.request = 0x08 ∧ r.tag = some tag ∧ r.code = .done

/-- R135, R134: with the engine IDLE and the memory ACTIVE the front waiting bounce leaves the list and starts without
a reply; one whose start check fails is answered the failing code, and the next is taken. The checks in order: the
track LOOPING with at least j entries and the bottom j LIVE, else WRONG_STATE; none of them pinned, else PINNED; for a
COMMIT the claim of R60, which fails NO_LAYER without a FREE record or a victim, and NO_ROOM without the pages. A SCAN
whose checks pass starts, with stroke 0 in flight and the credit at 0. Where the list may not advance the command
changes nothing (the model's choice, log 1). -/
def Obligations.WaitingBounceAdvances : Prop :=
  (∀ s : State, s.stopped = false → s.endSettled = true →
    s.bne.engine ≠ .idle ∨ s.tmc.mem ≠ .active ∨ s.bne.waiting = [] → exec .bounceQueueAdvance s = .next s) ∧
  (∀ (s : State) (t : TrackId) (j : Nat),
    let bottom := (s.track t).stack.take j
    let live (id : LayerId) : Prop := ∃ y, s.layer id = some y ∧ y.state = .live
    let pinned (id : LayerId) : Prop := ∃ y, s.layer id = some y ∧ y.pinned = true
    ((s.track t).state ≠ .looping ∨ (s.track t).stack.length < j ∨ (∃ id ∈ bottom, ¬live id) →
      s.bounceCheck t j = some .wrongState) ∧
    ((s.track t).state = .looping → j ≤ (s.track t).stack.length → (∀ id ∈ bottom, live id) →
      ((∃ id ∈ bottom, pinned id) → s.bounceCheck t j = some .pinned) ∧
      ((∀ id ∈ bottom, ¬pinned id) → s.bounceCheck t j = none))) ∧
  ∀ (s : State) (w : Waiting) (rest : List Waiting), s.stopped = false → s.endSettled = true → s.bne.engine = .idle →
    s.tmc.mem = .active → s.bne.waiting = w :: rest →
    let s1 := s.withBne { s.bne with waiting := rest }
    (∀ u, startBounce w.track w.count w.mode w.station w.tag s1 = .ok u → exec .bounceQueueAdvance s = .next u) ∧
    (∀ rc, rest = [] → startBounce w.track w.count w.mode w.station w.tag s1 = .error rc →
      exec .bounceQueueAdvance s = .next (reply w.station 0x11 w.tag true rc .none s1)) ∧
    (∀ rc, startBounce w.track w.count w.mode w.station w.tag s1 = .error rc →
      exec .bounceQueueAdvance s =
        exec .bounceQueueAdvance (reply w.station 0x11 w.tag true rc .none s1)) ∧
    (∀ rc, s1.bounceCheck w.track w.count = some rc →
      startBounce w.track w.count w.mode w.station w.tag s1 = .error rc) ∧
    (∀ rc, rest = [] → s1.bounceCheck w.track w.count = some rc →
      exec .bounceQueueAdvance s = .next (reply w.station 0x11 w.tag true rc .none s1)) ∧
    (∀ k l, w.mode = .commit → s1.bounceCheck w.track w.count = none → (s.track w.track).mult = some k →
      s.cyc.len = some l →
      (s.freeRecord = none → s.victim = none →
        startBounce w.track w.count w.mode w.station w.tag s1 = .error .noLayer) ∧
      (s.freeRecord ≠ none ∨ s.victim ≠ none → s.freeCount + s.reclaimable < (k * l + 255) / 256 →
        startBounce w.track w.count w.mode w.station w.tag s1 = .error .noRoom)) ∧
    ∀ sources above k l, w.mode = .scan → (s.track w.track).state = .looping →
      (s.track w.track).stack = sources ++ above → sources.length = w.count →
      (∀ id ∈ sources, ∃ x, s.layer id = some x ∧ x.state = .live ∧ x.pinned = false) →
      (s.track w.track).mult = some k → s.cyc.len = some l →
      exec .bounceQueueAdvance s = .next (
        let b : Bounce :=
          { track := w.track, count := w.count, mode := .scan, station := w.station, tag := w.tag, owed := true,
            sources := sources.map fun id =>
              ⟨id, ((s.layer id).map (·.serial)).getD 0, ((s.layer id).map (·.level)).getD 0⟩,
            dest := none, total := (k * l + 31) / 32, done := 0, stroke := some (0, w.count * min 32 (k * l)),
            peak := 0, clips := 0, suspendPending := false }
        (s.withBne { s.bne with waiting := rest, active := some b, engine := .scanning }).withTmc
          { s.tmc with credit := 0 })

/-! ## The hold -/

/-- R152, R154, R165: HOLD_ENTRY takes the trigger: in ACTIVE the memory becomes DRAINING with the trigger's cause and
no station, the timeline stops, the action queue is cancelled, every open pass is cut and HOLD_STATE is sent; in the
other memory states only the trigger goes (log 42). (That HOLD_STATE is the last event of the block is log 20.) -/
def Obligations.TriggerEntersHold : Prop :=
  ∀ (s : State) (cause : HoldCause) (n : Nat), s.stopped = false → s.settled = true → s.strokeDue = false →
    s.tmc.trigger = some (cause, n) →
    (s.tmc.mem ≠ .active → exec .holdEntry s = .next (s.withTmc { s.tmc with trigger := none })) ∧
    (s.tmc.mem = .active →
      ∃ t, exec .holdEntry s = .next t ∧
        t.tmc = { s.tmc with mem := .draining, holdCause := some cause, holdStation := none,
                             holdEntry := some s.cyc.block, holds := min (s.tmc.holds + 1) 4294967295,
                             trigger := none } ∧
        (s.cyc.state = .running →
          t.cyc.state = .paused ∧ t.cyc.pos = some 0 ∧ t.cyc.count = s.cyc.count ∧ t.aqu.queue = []) ∧
        (s.cyc.state = .unset ∨ s.cyc.state = .paused → t.cyc = s.cyc ∧ t.aqu = s.aqu) ∧
        (∀ i p, t.pass i = some p → p.cut ≠ none) ∧ t.mxe = s.mxe ∧ t.smn = s.smn ∧
        ∀ j, s.linkRuns j = true → ∃ e ∈ (t.link j).events.getLast?,
          e.body = .holdDraining cause none s.smn.supply s.smn.thermal t.cyc.state)

/-- R155, R159: at a boundary after the hold-entry block with no pass open and no stroke in flight the memory becomes
RETAINING, the drain total rises by the blocks drained and HOLD_STATE is sent; otherwise the command changes nothing
(the model's choice, log 1). A pass that ended in the current block is open until the end of its period (R155, R89). -/
def Obligations.DrainEndsInRetention : Prop :=
  ∀ (s : State) (h : Nat), s.stopped = false → s.endSettled = true → s.strokeDue = false → s.tmc.mem = .draining →
    s.tmc.holdEntry = some h →
    let busy : Prop := h = s.cyc.block ∨ (∃ i, s.pass i ≠ none ∨ (s.input i).endedHere = true) ∨
      s.strokeInFlight = true
    (busy → exec .drainComplete s = .next s) ∧
    (¬busy → exec .drainComplete s = .next (emit
      (.holdRetaining s.tmc.holdCause (diff32 s.cyc.block h) s.bne.engine)
      (s.withTmc { s.tmc with mem := .retaining,
                              drained := min (s.tmc.drained + diff32 s.cyc.block h) 4294967295 })))

/-- R158, R143, R20: at the wake end block the memory becomes ACTIVE and every hold and wake field goes; a PAUSED
timeline restarts from the top with its marks, BEAT_MARK 0 and CYCLE_MARK, to the stations that hear them (R18: they
are withheld where a stop or a hold of the block is known, log 43), any other stays; a SUSPENDED bounce puts its next
stroke in flight; HOLD_STATE is sent, which a station that hears both finds before the marks (log 39). Before that
block the command changes nothing (the model's choice, log 1). -/
def Obligations.WakeEndsTheHold : Prop :=
  ∀ (s : State) (cause : WakeCause), s.stopped = false → s.endSettled = true → s.tmc.mem = .waking →
    s.tmc.wakeCause = some cause →
    (s.tmc.wakeEnd ≠ some s.cyc.block → exec .wakeEnd s = .next s) ∧
    (s.tmc.wakeEnd = some s.cyc.block →
      ∃ t, exec .wakeEnd s = .next t ∧
        t.tmc = { s.tmc with mem := .active, holdCause := none, holdStation := none, holdEntry := none,
                             wakeCause := none, wakeEnd := none } ∧
        (s.cyc.state ≠ .paused → t.cyc = s.cyc ∧ ∀ u, t.track u = s.track u) ∧
        (s.cyc.state = .paused → ∀ l b, s.cyc.len = some l → s.cyc.beats = some b →
          let known : Bool := (s.aqu.queue.any fun e => e.action = .transportStop && e.due = s.cyc.block) ||
            s.tmc.trigger.any fun x => x.2 ≠ s.cyc.block
          t.cyc = { s.cyc with state := .running, pos := some 0, count := 0,
                               withheld := known || s.cyc.withheld } ∧
          (∀ u, t.track u =
            if (s.track u).state = .empty then s.track u else { s.track u with anchor := some 0 }) ∧
          ∀ j, s.hears j .beatMark 3 = true → s.hears j .cycleMark 3 = true →
            (t.link j).events.map (·.body) = (s.link j).events.map (·.body) ++
              (if known then [.holdActive cause .running]
               else [.holdActive cause .running, .beatMark 0, .cycleMark l b])) ∧
        (s.bne.engine ≠ .suspended → t.bne = s.bne) ∧
        (∀ b k l, s.bne.engine = .suspended → s.bne.active = some b → (s.track b.track).mult = some k →
          s.cyc.len = some l → t.bne = { s.bne with
            engine := (match b.mode with
              | .scan => .scanning
              | .commit => .committing),
            active := some { b with stroke := some (b.done,
              (if b.mode = .commit then b.count + 1 else b.count) * min 32 (k * l - 32 * b.done)) } }) ∧
        t.lys.layers = s.lys.layers ∧ t.pse = s.pse ∧ t.pgp = s.pgp ∧ t.aqu = s.aqu ∧ t.mxe = s.mxe ∧ t.mem = s.mem ∧
        ∀ j, s.linkRuns j = true → ∃ e ∈ (t.link j).events, e.body = .holdActive cause t.cyc.state)

/-! ## Supply -/

/-- R161, R162, R163, R165, R166: a reading at 3 300 mV or above records both values, moves the supply and thermal
states as the first applicable lines of their tables give, keeps the extremes and counts the changes, and hands the
controller a trigger in SCORCH and in CRITICAL. R164, R111, R149: the mix engine and the controller take the new states
now or, as the command says for each (log 8), at the boundary; a reading made after its period finds them there at once
(log 24). R166: a change sends SUPPLY_STATE or THERMAL_STATE, both in the order the command gives (log 8), the change to
CRITICAL to every link in RUN. When a reading can be made, and that it is made once, is log 24; that a
trigger handed replaces one that waits, and that one stays where none is handed, is log 42. -/
def Obligations.ReadingMovesTheStates : Prop :=
  ∀ (s : State) (battery : Nat) (temperature : Option Int) (o : HandOff), s.stopped = false → s.readingDue = true →
    3300 ≤ battery →
    let v := min battery 20000
    let c : Int := match temperature with
      | none => 125
      | some x => max (-40) (min 125 x)
    let T := s.smn.thrift
    let K := s.smn.critical
    ∃ t, exec (.supplyReading battery temperature o) s = .next t ∧
      t.smn.battery = some v ∧ t.smn.temperature = some c ∧ t.smn.thrift = T ∧ t.smn.critical = K ∧
      t.smn.phase = s.smn.phase ∧ (s.smn.readOwed = false → t.readingDue = false) ∧
      t.smn.supply = (if v < K then .critical
        else if s.smn.supply = .critical then (if K + 200 ≤ v then .thrift else .critical)
        else if s.smn.supply = .thrift then (if T + 200 ≤ v then .normal else .thrift)
        else if v < T then .thrift else .normal) ∧
      t.smn.thermal = (if 100 ≤ c then .scorch
        else if s.smn.thermal = .scorch then (if c < 90 then .hot else .scorch)
        else if s.smn.thermal = .hot then (if c < 80 then .cool else .hot)
        else if c < 85 then .cool else .hot) ∧
      (s.smn.lowest = none → t.smn.lowest = some v) ∧ (s.smn.highest = none → t.smn.highest = some c) ∧
      (∀ x, s.smn.lowest = some x → t.smn.lowest = some (min x v)) ∧
      (∀ x, s.smn.highest = some x → t.smn.highest = some (max x c)) ∧
      t.smn.changes = min (s.smn.changes + (if t.smn.supply = s.smn.supply then 0 else 1) +
        (if t.smn.thermal = s.smn.thermal then 0 else 1)) 4294967295 ∧
      t.tmc.trigger.map (·.1) = (if t.smn.thermal = .scorch then some .scorch
        else if t.smn.supply = .critical then some .critical else s.tmc.trigger.map (·.1)) ∧
      t.cyc = s.cyc ∧ t.lys = s.lys ∧ t.pgp = s.pgp ∧ t.pse = s.pse ∧ t.aqu = s.aqu ∧ t.bne = s.bne ∧ t.mem = s.mem ∧
      t.mxe = { s.mxe with
        supply := if s.smn.readOwed || !o.supplyLate then t.smn.supply else s.mxe.supply,
        thermal := if s.smn.readOwed || !o.thermalLate then t.smn.thermal else s.mxe.thermal } ∧
      t.tmc = { s.tmc with
        refresh := if s.smn.readOwed || !o.chargeLate then (if t.smn.thermal = .cool then 2 else 4) else s.tmc.refresh,
        trigger := t.tmc.trigger } ∧
      (t.smn.supply = s.smn.supply → t.smn.thermal = s.smn.thermal → t.slk = s.slk ∧ t.rqu = s.rqu) ∧
      (let info := if s.smn.readOwed then s.cyc.last else s.info
       let su : EventBody := .supplyState t.smn.supply s.smn.supply v T K s.inHold
       let th : EventBody := .thermalState t.smn.thermal s.smn.thermal c s.inHold
       ∀ j : Link,
        (t.smn.supply ≠ s.smn.supply →
          (t.smn.supply = .critical ∧ s.linkRuns j = true) ∨ s.hears j .supplyState 2 = true →
          ∃ e ∈ (t.link j).events, e.info = info ∧ e.body = su) ∧
        (t.smn.thermal ≠ s.smn.thermal → s.hears j .thermalState 2 = true →
          ∃ e ∈ (t.link j).events, e.info = info ∧ e.body = th) ∧
        (t.smn.supply ≠ s.smn.supply → t.smn.thermal ≠ s.smn.thermal → s.hears j .supplyState 2 = true →
          s.hears j .thermalState 2 = true → (t.link j).events.map (·.body) =
            (s.link j).events.map (·.body) ++ (if o.thermalFirst then [th, su] else [su, th])))

/-- R168, R182: a reading below 3 300 mV stops the hub and keeps nothing but the interval of the battery measurement,
which a block boundary advances; a measurement due at 3 300 mV or above and the reset input are each a power-on reset,
which sets every block to its power-on values from any state; one due below 3 300 mV is made and changes nothing else;
nothing but these changes a stopped hub. (What the model itself holds, the waiting commands and the free-value counter,
stays: log 25; when a measurement is due is log 24.) -/
def Obligations.BrownoutStopsAndResetRestarts : Prop :=
  ∀ s : State,
    let fresh : State := { State.reset with freeIndex := s.freeIndex, pending := s.pending }
    exec .powerOnReset s = .next fresh ∧
    (∀ battery temperature o, s.stopped = false → s.readingDue = true → battery < 3300 →
      exec (.supplyReading battery temperature o) s = .next { fresh with
        stopped := true,
        smn := { Smn.reset with phase := s.smn.phase, readDone := !s.smn.readOwed } }) ∧
    (∀ battery, s.stopped = true → s.readingDue = true →
      (3300 ≤ battery → exec (.brownoutEnd battery) s = .next fresh) ∧
      (battery < 3300 → exec (.brownoutEnd battery) s =
        .next (s.withSmn { s.smn with readDone := !s.smn.readOwed, readOwed := false }))) ∧
    (∀ order, s.stopped = true → exec (.blockBoundary order) s = .next (s.withSmn
      { s.smn with phase := if s.smn.phase = 99 then 0 else s.smn.phase + 1, readDone := false,
                   readOwed := s.smn.phase = 99 && !s.smn.readDone })) ∧
    ∀ c, s.stopped = true → c ≠ .powerOnReset → (∀ order, c ≠ .blockBoundary order) →
      (∀ battery, c = .brownoutEnd battery → s.readingDue = false) → exec c s = .next s

/-! ## The links: packets received -/

/-- R69, R175: an input block received whole is filed under its stamp where the stamp lies 0 to 3 ahead of N mod 256,
replacing one of the same stamp, and is counted EARLY to 127 ahead and LATE beyond. -/
def Obligations.InputBlockIsFiledByStamp : Prop :=
  ∀ (s : State) (lk : Link) (stamp : Byte) (data : List Byte), s.stopped = false → (s.link lk).state = .run →
    (s.link lk).assembly = .outside → data.length = 144 →
    let r := s.input lk
    let d := (stamp.toNat + 256 - s.cyc.block % 256) % 256
    let again : Bool := r.slots.any fun c => c.1 = stamp.toNat
    (d ≤ 3 → ∃ slots, exec (.inputBlock lk stamp data) s = .next (s.withInput lk
        { r with slots := slots,
                 stored := if again then r.stored else min (r.stored + 1) 4294967295,
                 replaced := if again then min (r.replaced + 1) 4294967295 else r.replaced }) ∧
      (slots.find? fun c => c.1 = stamp.toNat) = some (stamp.toNat, bytesBlock data) ∧
      (slots.filter fun c => c.1 ≠ stamp.toNat) = r.slots.filter fun c => c.1 ≠ stamp.toNat) ∧
    (4 ≤ d → d ≤ 127 → exec (.inputBlock lk stamp data) s =
      .next (s.withInput lk { r with early := min (r.early + 1) 4294967295 })) ∧
    (128 ≤ d → exec (.inputBlock lk stamp data) s =
      .next (s.withInput lk { r with late := min (r.late + 1) 4294967295 }))

/-- R176, R175: a complete request enters the tail of a request queue that holds fewer than 4 and is counted; one that
meets 4 is counted and answered BUSY as a reception reply, unless 3 of those wait. A hub packet of no known type or of
fewer than two bytes is counted as unknown and answered MALFORMED; an input block of a wrong length is counted as
malformed without a reply; one ended by FAULT_END is counted without a reply. R170, R175: outside a packet the byte
0x00 begins a hub packet, whose data bytes are collected up to 264 with the address byte and passed over beyond; its
END acts as the whole packet would, and its FAULT_END is counted; a command that gives a packet whole is its END, where
what has been collected is the packet's beginning (log 5). (Which bytes stand for code and tag in an unknown packet's
reply is the model's choice, log 40.) -/
def Obligations.HubPacketsAreReceived : Prop :=
  (∀ (s : State) (lk : Link) (body : List Byte), s.stopped = false → (s.link lk).state = .run →
    (s.link lk).assembly = .outside → body.length ≤ 262 →
    let r := s.link lk
    let waiting := (r.replies.filter (·.reception)).length
    (r.requests.length < 4 → exec (.requestPacket lk body) s = .next (s.withLink lk
      { r with requests := r.requests ++ [⟨body, false⟩],
               station := { r.station with queued := min (r.station.queued + 1) 4294967295 } })) ∧
    (4 ≤ r.requests.length → waiting < 3 → exec (.requestPacket lk body) s = .next (s.withLink lk
      { r with replies := r.replies ++
                 [⟨body.getD 0 0, body[1]?, false, .busy, s.cyc.block % 256, .none, true⟩],
               station := { r.station with busy := min (r.station.busy + 1) 4294967295 } })) ∧
    (4 ≤ r.requests.length → 3 ≤ waiting → exec (.requestPacket lk body) s = .next (s.withLink lk
      { r with station := { r.station with busy := min (r.station.busy + 1) 4294967295,
                                           unanswered := min (r.station.unanswered + 1) 4294967295 } }))) ∧
  (∀ (s : State) (lk : Link), s.stopped = false → (s.link lk).state = .run → (s.link lk).assembly = .outside →
    let r := s.link lk
    (∀ bytes : List Byte, bytes.length ≤ 263 → bytes.head? ≠ some 0x01 → bytes.head? ≠ some 0x02 →
      (r.replies.filter (·.reception)).length < 3 →
      exec (.unknownPacket lk bytes) s = .next (s.withLink lk
        { r with replies := r.replies ++
                   [⟨bytes.getD 1 0, bytes[2]?, false, .malformed, s.cyc.block % 256, .none, true⟩],
                 station := { r.station with unknown := min (r.station.unknown + 1) 4294967295 } })) ∧
    (∀ data : List Byte, data.length ≤ 262 → data.length ≠ 145 →
      exec (.unknownPacket lk (0x02 :: data)) s = .next (s.withLink lk
        { r with station := { r.station with malformed := min (r.station.malformed + 1) 4294967295 } })) ∧
    exec (.hubPacketFaultEnd lk) s = .next (s.withLink lk
      { r with station := { r.station with faultEnded := min (r.station.faultEnded + 1) 4294967295 } })) ∧
  ∀ (s : State) (lk : Link), s.stopped = false → (s.link lk).state = .run →
    let r := s.link lk
    let outside : State := s.withLink lk { r with assembly := .outside }
    (r.assembly = .outside →
      exec (.forwardDataByte lk 0x00) s = .next (s.withLink lk { r with assembly := .hub [] false }) ∧
      exec (.forwardRoute lk 0x00) s = .next (s.withLink lk { r with assembly := .hub [] false })) ∧
    ∀ bytes overlong, r.assembly = .hub bytes overlong →
      (∀ b, exec (.forwardDataByte lk b) s = .next (s.withLink lk
        { r with assembly := if bytes.length < 263 then .hub (bytes ++ [b]) overlong else .hub bytes true })) ∧
      (∀ body, bytes = 0x01 :: body → r.requests.length < 4 →
        exec (.forwardEnd lk) s = .next (s.withLink lk
          { r with assembly := .outside, requests := r.requests ++ [⟨body, overlong⟩],
                   station := { r.station with queued := min (r.station.queued + 1) 4294967295 } })) ∧
      (overlong = false → bytes.length ≤ 263 →
        (∀ stamp data, bytes = 0x02 :: stamp :: data → data.length = 144 →
          exec (.forwardEnd lk) s = exec (.inputBlock lk stamp data) outside) ∧
        (∀ body, bytes = 0x01 :: body → exec (.forwardEnd lk) s = exec (.requestPacket lk body) outside) ∧
        exec (.forwardEnd lk) s = exec (.unknownPacket lk bytes) outside ∧
        ∀ more, bytes.length + more.length ≤ 263 →
          exec (.unknownPacket lk (bytes ++ more)) s = exec (.unknownPacket lk (bytes ++ more)) outside) ∧
      exec (.forwardFaultEnd lk) s = .next (s.withLink lk
        { r with assembly := .outside,
                 station := { r.station with faultEnded := min (r.station.faultEnded + 1) 4294967295 } }) ∧
      exec (.hubPacketFaultEnd lk) s = exec (.forwardFaultEnd lk) s

/-! ## The links: bring-up and loss -/

/-- R171, R174, R71, R107, R144, R172: a link error or a silence in RUN takes the link to RECOVER for 40 character
times and counts its cause; the link's queues and slots are emptied, its input's slot queue too, the input's pass is
cut, the station's entries and waiting bounces go without a reply, and LINK_STATE is sent to the other stations. An END
or FAULT_END is such an error outside a packet, and no error inside one. R178: each packet in the link's slots is lost,
with one ROUTE_FAIL (DOWN) to its source where that is in RUN, counted there, the rest of one still arriving passed
over; a forward that the link was sending leaves its slots, with FAULT_END in place of the next byte where its
transmission had begun, and nothing otherwise; its own packet in transmission is abandoned. R179: a broadcast all of
whose copies have ended is gone, and counted at its source where a copy had been sent whole. How many bytes had been
passed on is a free value (log 14), and how a line ended is the model's own field (log 29). The recover end in
character times is the model's choice (log 17); what is due at the start of the block comes before the loss (R103),
which is why nothing is due here. -/
def Obligations.LinkLossEmptiesTheLink : Prop :=
  (∀ (s : State) (lk : Link) (c : Instr) (cause : RecoveryCause) (char : Nat), s.stopped = false →
    s.settled = true → (s.link lk).state = .run →
    (c = .linkSilence lk char ∧ cause = .silence ∨ c = .linkError lk .parity char ∧ cause = .parity ∨
      c = .linkError lk .breakChar char ∧ cause = .breakChar ∨ c = .linkError lk .badCode char ∧ cause = .badCode ∨
      (s.link lk).assembly = .outside ∧ cause = .strayEnd ∧ (c = .linkError lk .strayEnd char ∨
        char = 0 ∧ (c = .forwardEnd lk ∨ c = .forwardFaultEnd lk))) →
    ∃ t, exec c s = .next t ∧
      (t.link lk).state = .recover ∧ (t.link lk).requests = [] ∧ (t.link lk).replies = [] ∧ (t.link lk).events = [] ∧
      (t.link lk).ret = none ∧ (t.link lk).tx = none ∧ (t.link lk).assembly = .outside ∧
      (∀ k, t.slot lk k = none) ∧
      (t.link lk).recoverEnd = some (((s.cyc.block * 2000 + char) % charWrap + 40) % charWrap) ∧
      (t.link lk).counters = cause.count (s.link lk).counters ∧
      (t.input lk).slots = [] ∧ (t.input lk).present = false ∧ (∀ p, t.pass lk = some p → p.cut ≠ none) ∧
      t.aqu = { s.aqu with queue := s.aqu.queue.filter fun e => e.station ≠ lk } ∧
      t.bne.waiting = (s.bne.waiting.filter fun w => w.station ≠ lk) ∧
      (∀ b, t.bne.active = some b → b.station = lk → b.owed = false) ∧
      (∀ j, j ≠ lk → t.input j = s.input j ∧ (t.link j).state = (s.link j).state ∧
        (t.link j).requests = (s.link j).requests ∧ (t.link j).replies = (s.link j).replies ∧
        (t.link j).counters = (s.link j).counters) ∧
      (∀ j, j ≠ lk → s.hears j .linkState 6 = true → ∃ e ∈ (t.link j).events.getLast?,
        e.body = .linkState lk .recover (some cause)) ∧
      t.tmc = s.tmc ∧ t.mxe = s.mxe ∧ t.smn = s.smn ∧
      ((∀ f, (s.link lk).assembly = .forward f → ∀ x ∈ f.copies, x.1 ≠ lk) →
        (∀ k x, s.slot lk k = some x → x.source ≠ lk → s.linkRuns x.source = true →
          ((s.link x.source).events.length + 4 < 16 → ∃ e ∈ (t.link x.source).events, ∃ n,
            e.body = .routeFail .down x.dest [lk] n ∧ n ≤ x.bytes.length - 1 ∧ (x.begun = false → n = 0)) ∧
          ∀ dest n g, (s.link x.source).assembly = .forward ⟨dest, [(lk, k)], n, g⟩ →
            (t.link x.source).assembly = .passOver) ∧
        (∀ j, j ≠ lk → s.linkRuns j = true →
          let lost := (([0, 1] : List (Fin 2)).filter fun k => (s.slot lk k).any fun x => x.source = j).length
          (t.link j).station.routeFails = if lost = 0 then (s.link j).station.routeFails
            else min ((s.link j).station.routeFails + lost) 4294967295) ∧
        (∀ f, (s.link lk).assembly = .forward f → ∀ x ∈ f.copies, t.slot x.1 x.2 = none ∧
          (s.slotBegun x.1 x.2 = true → (t.link x.1).tx = none ∧ (t.link x.1).lineEnd = .faultEnded) ∧
          ((∀ y ∈ f.copies, y.1 = x.1 → s.slotBegun y.1 y.2 = false) →
            (t.link x.1).tx = (s.link x.1).tx ∧ (t.link x.1).lineEnd = (s.link x.1).lineEnd)) ∧
        (t.link lk).lineEnd = (if (s.link lk).tx.isSome then .abandoned else (s.link lk).lineEnd) ∧
        t.slk.broadcasts = s.slk.broadcasts.filter (fun b => t.groupOpen b.group) ∧
        ∀ j, let whole := (s.slk.broadcasts.filter fun b => b.source = j && b.whole && !t.groupOpen b.group).length
          (t.link j).station.forwardedFrom = if whole = 0 then (s.link j).station.forwardedFrom
            else min ((s.link j).station.forwardedFrom + whole) 4294967295)) ∧
  ∀ (s : State) (lk : Link) (char : Nat), s.stopped = false → (s.link lk).state = .run →
    (s.link lk).assembly ≠ .outside → exec (.linkError lk .strayEnd char) s = .next s

/-- R172, R173: RECOVER ends in LISTEN with the count at 0; 8 FILL in a row take LISTEN to JOIN; there each FILL sent
is counted, and with the 16th, once 15 stand counted, the fresh join takes JOIN to RUN, sets the station's counters,
settings and input counts to their defaults, and keeps the link counters but for one more join, and LINK_STATE with
state RUN goes to the other stations that hear it. Outside RUN, the errors of R171, an END or FAULT_END among them,
take a link in JOIN to RECOVER and count their cause, restart the count of a link in LISTEN, and are not read in
RECOVER. What the sources leave open is the model's: the bring-up count that stands in RUN (log 18), the time's unit
(log 17), and which count a data character in JOIN raises, if any (a free value, log 16). -/
def Obligations.LinkComesUpInOrder : Prop :=
  (∀ (s : State) (lk : Link), s.stopped = false →
    let r := s.link lk
    (∀ char due, r.state = .recover → r.recoverEnd = some due →
      timeReached ((s.cyc.block * 2000 + char) % charWrap) due = true →
      exec (.recoverEnd lk char) s = .next (s.withLink lk
        { r with state := .listen, bringUp := 0, recoverEnd := none })) ∧
    (∀ fills, r.state = .listen →
      (r.bringUp + fills < 8 →
        exec (.listenFillCount lk fills) s = .next (s.withLink lk { r with bringUp := r.bringUp + fills })) ∧
      (8 ≤ r.bringUp + fills →
        exec (.listenFillCount lk fills) s = .next (s.withLink lk { r with state := .join, bringUp := 0 }))) ∧
    (r.state = .join → r.bringUp < 15 →
      exec (.transmitStart lk) s = .next (s.withLink lk { r with bringUp := r.bringUp + 1 }) ∧
      exec (.freshJoin lk) s = .next s) ∧
    (r.state = .join → r.bringUp = 15 → ∃ t, exec (.freshJoin lk) s = .next t ∧
      (t.link lk) = { r with state := .run, bringUp := 16, assembly := .outside, station := StationCounters.zero,
                             counters := { r.counters with joins := min (r.counters.joins + 1) 4294967295 } } ∧
      t.station lk = Settings.reset ∧
      t.input lk = { s.input lk with stored := 0, replaced := 0, early := 0, late := 0, dropouts := 0 } ∧
      (∀ j, j ≠ lk → t.input j = s.input j ∧ (t.link j).besideEvents = (s.link j).besideEvents ∧
        (t.station j).besideEvents = (s.station j).besideEvents) ∧
      (∀ j, j ≠ lk → s.hears j .linkState 0 = true → ∃ e ∈ (t.link j).events.getLast?, e.info = s.info ∧
        e.body = .linkState lk .run none) ∧
      t.inner = ({ s with pse := t.pse } : State).inner)) ∧
  (∀ (s : State) (lk : Link) (char : Nat), s.stopped = false →
    let r := s.link lk
    let gone : LinkRec :=
      { r with state := .recover, bringUp := 0,
               recoverEnd := some (((s.cyc.block * 2000 + char) % charWrap + 40) % charWrap) }
    (r.state = .join →
      exec (.linkSilence lk char) s = .next (s.withLink lk
        { gone with counters := RecoveryCause.silence.count r.counters }) ∧
      exec (.linkError lk .parity char) s = .next (s.withLink lk
        { gone with counters := RecoveryCause.parity.count r.counters }) ∧
      exec (.linkError lk .breakChar char) s = .next (s.withLink lk
        { gone with counters := RecoveryCause.breakChar.count r.counters }) ∧
      exec (.linkError lk .badCode char) s = .next (s.withLink lk
        { gone with counters := RecoveryCause.badCode.count r.counters }) ∧
      exec (.linkError lk .strayEnd char) s = .next (s.withLink lk
        { gone with counters := RecoveryCause.strayEnd.count r.counters }) ∧
      (char = 0 → exec (.forwardEnd lk) s = exec (.linkError lk .strayEnd 0) s ∧
        exec (.forwardFaultEnd lk) s = exec (.linkError lk .strayEnd 0) s) ∧
      ∃ k, exec (.linkError lk .joinData char) s = .next
          ((s.withLink lk { gone with counters := k }).nextFree) ∧
        (k = r.counters ∨ ∃ cause : RecoveryCause, k = cause.count r.counters)) ∧
    (r.state = .listen → ∀ cause,
      exec (.linkError lk cause char) s = .next (s.withLink lk { r with bringUp := 0 }) ∧
      exec (.linkSilence lk char) s = .next (s.withLink lk { r with bringUp := 0 }) ∧
      exec (.forwardEnd lk) s = .next (s.withLink lk { r with bringUp := 0 }) ∧
      exec (.forwardFaultEnd lk) s = .next (s.withLink lk { r with bringUp := 0 })) ∧
    (r.state = .recover → ∀ cause,
      exec (.linkError lk cause char) s = .next s ∧ exec (.linkSilence lk char) s = .next s ∧
      exec (.forwardEnd lk) s = .next s ∧ exec (.forwardFaultEnd lk) s = .next s))

/-! ## The links: forwards and transmission -/

/-- R177, R190: a forward's route is tested at its destination byte: no such link, the link itself, a link not in RUN,
a link without an empty forward slot, each giving a ROUTE_FAIL with its reason to the source; else the first empty slot
is claimed with the source address as its first byte. A broadcast (R179) is offered to every other link in RUN: those
with an empty forward slot receive a copy with the source's address, those without are listed in one ROUTE_FAIL (BUSY)
to the source; with no copy the rest is passed over. (That NO_SUCH lists no link and SELF the source is the model's
choice, log 28; so is the ascending order of the links in the list, log 58.) A data byte received outside a packet is
such a destination byte (R170). -/
def Obligations.ForwardRouteIsTested : Prop :=
  (∀ (s : State) (lk : Link) (dest : Byte), s.stopped = false → (s.link lk).state = .run →
    (s.link lk).assembly = .outside → dest ≠ 0x00 → dest ≠ 0xFF →
    exec (.forwardDataByte lk dest) s = exec (.forwardRoute lk dest) s ∧
    let failed (reason : RouteReason) (links : List Link) : State :=
      deliver lk (.routeFail reason dest links 0) s.info (s.withLink lk
        { s.link lk with assembly := .passOver,
                         station := { (s.link lk).station with
                           routeFails := min ((s.link lk).station.routeFails + 1) 4294967295 } })
    (4 < dest.toNat → exec (.forwardRoute lk dest) s = .next (failed .noSuch [])) ∧
    ∀ d : Link, dest.toNat = d.val + 1 →
      (d = lk → exec (.forwardRoute lk dest) s = .next (failed .self [lk])) ∧
      (d ≠ lk → (s.link d).state ≠ .run → exec (.forwardRoute lk dest) s = .next (failed .down [d])) ∧
      (d ≠ lk → (s.link d).state = .run → s.emptySlot d = none →
        exec (.forwardRoute lk dest) s = .next (failed .busy [d])) ∧
      ∀ k, d ≠ lk → (s.link d).state = .run → s.emptySlot d = some k →
        exec (.forwardRoute lk dest) s = .next
          ((s.withLink d { s.link d with fwd := (s.link d).fwd.set k (some
              { source := lk, dest := dest, bytes := [BitVec.ofNat 8 (lk.val + 1)], complete := false, begun := false,
                group := none }) }).withLink lk
            { s.link lk with assembly := .forward ⟨dest, [(d, k)], 0, none⟩ })) ∧
  (∀ (s : State) (lk : Link), s.stopped = false → (s.link lk).state = .run → (s.link lk).assembly = .outside →
    exec (.forwardDataByte lk 0xFF) s = exec (.broadcastRoute lk) s ∧
    ∃ t, exec (.broadcastRoute lk) s = .next t ∧
      (∀ d k, d ≠ lk → (s.link d).state = .run → s.emptySlot d = some k →
        ∃ x, t.slot d k = some x ∧ x.source = lk ∧ x.bytes = [BitVec.ofNat 8 (lk.val + 1)] ∧ x.complete = false ∧
          x.begun = false) ∧
      (∀ d k, d = lk ∨ (s.link d).state ≠ .run ∨ s.emptySlot d ≠ some k → t.slot d k = s.slot d k) ∧
      (let copies := allLinks.filter fun d => d ≠ lk && s.linkRuns d && (s.emptySlot d).isSome
       let busy := allLinks.filter fun d => d ≠ lk && s.linkRuns d && (s.emptySlot d).isNone
       (copies = [] → (t.link lk).assembly = .passOver) ∧
       (copies ≠ [] → ∃ f, (t.link lk).assembly = .forward f ∧ f.copies.map (·.1) = copies ∧ f.received = 0) ∧
       (busy = [] → (t.link lk).station = (s.link lk).station ∧ (t.link lk).events = (s.link lk).events) ∧
       (busy ≠ [] → (t.link lk).station = { (s.link lk).station with
          routeFails := min ((s.link lk).station.routeFails + 1) 4294967295 } ∧
        ∃ e ∈ (t.link lk).events.getLast?, e.body = .routeFail .busy 0xFF busy 0)) ∧
      t.inner = s.inner)

/-- R177: each data byte of a forward to one link is appended to its slot as it arrives, to 256 bytes after the
address; the END completes the packet in its slot and counts it at its source. R178: a FAULT_END received, or the 257th
byte after the address, closes a forward to one link: its slot is emptied, and where its transmission had begun
FAULT_END is sent in place of the next byte; the 257th byte is reported TOO_LONG and the rest passed over, the
FAULT_END passed on counted as a fault-ended packet (where its transmission had not begun it is not, log 15). R179:
each data byte of a broadcast reaches every copy, and its END completes them, the broadcast being counted only when
they have ended; one FAULT_END closes every copy, and one 257th byte does, with one ROUTE_FAIL (TOO_LONG) that lists
their links; a broadcast none of whose copies was sent whole is not counted. The order in which the links are listed is
the model's choice (log 58). The count of bytes passed on is a free value (log 14), how a line ended the model's own
field (log 29), and the list of broadcasts its bookkeeping (log 30). -/
def Obligations.ForwardReachesItsSlot : Prop :=
  (∀ (s : State) (lk d : Link) (k : Fin 2) (dest : Byte) (received : Nat) (x : FwdSlot), s.stopped = false →
    (s.link lk).state = .run → d ≠ lk → (s.link lk).assembly = .forward ⟨dest, [(d, k)], received, none⟩ →
    s.slot d k = some x →
    (∀ byte, received < 256 → exec (.forwardDataByte lk byte) s = .next
      ((s.withLink d { s.link d with fwd := (s.link d).fwd.set k (some { x with bytes := x.bytes ++ [byte] }) }).withLink lk
        { s.link lk with assembly := .forward ⟨dest, [(d, k)], received + 1, none⟩ })) ∧
    exec (.forwardEnd lk) s = .next
      ((s.withLink d { s.link d with fwd := (s.link d).fwd.set k (some { x with complete := true }) }).withLink lk
        { s.link lk with assembly := .outside,
                         station := { (s.link lk).station with
                           forwardedFrom := min ((s.link lk).station.forwardedFrom + 1) 4294967295 } })) ∧
  (∀ (s : State) (lk d : Link) (k : Fin 2) (dest : Byte) (received : Nat) (x : FwdSlot), s.stopped = false →
    (s.link lk).state = .run → d ≠ lk → (s.link lk).assembly = .forward ⟨dest, [(d, k)], received, none⟩ →
    s.slot d k = some x → s.slk.broadcasts = [] →
    (∃ t, exec (.forwardFaultEnd lk) s = .next t ∧ t.slot d k = none ∧ (t.link lk).assembly = .outside ∧
      (t.link lk).station = (if x.begun then { (s.link lk).station with
        faultEnded := min ((s.link lk).station.faultEnded + 1) 4294967295 } else (s.link lk).station) ∧
      (t.link d).tx = (if x.begun then none else (s.link d).tx) ∧
      (t.link d).lineEnd = (if x.begun then .faultEnded else (s.link d).lineEnd) ∧ t.inner = s.inner) ∧
    (received = 256 →
      ∃ t, exec (.forwardTooLong lk) s = .next t ∧ t.slot d k = none ∧ (t.link lk).assembly = .passOver ∧
        (t.link lk).station = { (s.link lk).station with
          routeFails := min ((s.link lk).station.routeFails + 1) 4294967295 } ∧
        (t.link d).tx = (if x.begun then none else (s.link d).tx) ∧
        (t.link d).lineEnd = (if x.begun then .faultEnded else (s.link d).lineEnd) ∧
        ∃ e ∈ (t.link lk).events.getLast?, ∃ n, e.body = .routeFail .tooLong dest [d] n ∧ n ≤ 256 ∧
          (x.begun = false → n = 0))) ∧
  ∀ (s : State) (lk : Link) (copies : List (Link × Fin 2)) (received g : Nat) (pre post : List Broadcast),
    s.stopped = false → (s.link lk).state = .run → (s.link lk).assembly = .forward ⟨0xFF, copies, received, some g⟩ →
    copies ≠ [] → copies.Nodup → (∀ c ∈ copies, c.1 ≠ lk ∧ (s.slot c.1 c.2).any (fun x => x.group = some g) = true) →
    (∀ d k x, s.slot d k = some x → x.group = some g → (d, k) ∈ copies) →
    s.slk.broadcasts = pre ++ ⟨g, lk, false⟩ :: post → (∀ b ∈ pre ++ post, b.group ≠ g ∧ s.groupOpen b.group = true) →
    let begun : Bool := copies.any fun c => s.slotBegun c.1 c.2
    (∀ byte, received < 256 → ∃ t, exec (.forwardDataByte lk byte) s = .next t ∧
      (t.link lk).assembly = .forward ⟨0xFF, copies, received + 1, some g⟩ ∧ t.slk.broadcasts = s.slk.broadcasts ∧
      ∀ c ∈ copies, t.slot c.1 c.2 = (s.slot c.1 c.2).map fun x => { x with bytes := x.bytes ++ [byte] }) ∧
    (∃ t, exec (.forwardEnd lk) s = .next t ∧ (t.link lk).assembly = .outside ∧
      (t.link lk).station = (s.link lk).station ∧ t.slk.broadcasts = s.slk.broadcasts ∧
      ∀ c ∈ copies, t.slot c.1 c.2 = (s.slot c.1 c.2).map fun x => { x with complete := true }) ∧
    (∃ t, exec (.forwardFaultEnd lk) s = .next t ∧ (t.link lk).assembly = .outside ∧
      (∀ c ∈ copies, t.slot c.1 c.2 = none ∧
        (s.slotBegun c.1 c.2 = true → (t.link c.1).tx = none ∧ (t.link c.1).lineEnd = .faultEnded)) ∧
      (t.link lk).station = (if begun then { (s.link lk).station with
        faultEnded := min ((s.link lk).station.faultEnded + 1) 4294967295 } else (s.link lk).station) ∧
      t.slk.broadcasts = pre ++ post ∧ t.inner = s.inner) ∧
    (received = 256 → ∃ t, exec (.forwardTooLong lk) s = .next t ∧ (t.link lk).assembly = .passOver ∧
      (∀ c ∈ copies, t.slot c.1 c.2 = none ∧
        (s.slotBegun c.1 c.2 = true → (t.link c.1).tx = none ∧ (t.link c.1).lineEnd = .faultEnded)) ∧
      (t.link lk).station = { (s.link lk).station with
        routeFails := min ((s.link lk).station.routeFails + 1) 4294967295 } ∧
      t.slk.broadcasts = pre ++ post ∧
      ∃ e ∈ (t.link lk).events.getLast?, ∃ n, e.body = .routeFail .tooLong 0xFF (copies.map (·.1)) n ∧ n ≤ 256 ∧
        (begun = false → n = 0))

/-- R180, R177: an idle transmitter in RUN takes the return slot, else the head of the reply queue, else of the event
queue, else a forward slot, of two the one not served last; at the END a forwarded packet leaves its slot and is
counted at its destination. R179: so is each copy of a broadcast; with the END of the last copy that stands the
broadcast leaves the list and is counted once at its source, and while another stands it is only noted that one has
been sent whole (log 30). -/
def Obligations.TransmitterChoosesInOrder : Prop :=
  ∀ (s : State) (lk : Link), s.stopped = false → (s.link lk).state = .run →
    let r := s.link lk
    (r.tx = none →
      (∀ x, r.ret = some x → exec (.transmitStart lk) s =
        .next (s.withLink lk { r with ret := none, tx := some (.hub x.bytes) })) ∧
      (∀ x rest, r.ret = none → r.replies = x :: rest → exec (.transmitStart lk) s =
        .next (s.withLink lk { r with replies := rest, tx := some (.hub x.bytes) })) ∧
      (∀ x rest, r.ret = none → r.replies = [] → r.events = x :: rest → exec (.transmitStart lk) s =
        .next (s.withLink lk { r with events := rest, tx := some (.hub x.bytes) })) ∧
      (∀ k x, r.ret = none → r.replies = [] → r.events = [] → s.slot lk k = some x → x.begun = false →
        (k ≠ r.lastFwd ∨ ∀ k' y, k' ≠ k → s.slot lk k' = some y → y.begun = true) →
        exec (.transmitStart lk) s = .next (s.withLink lk
          { r with lastFwd := k, tx := some (.forward k), fwd := r.fwd.set k (some { x with begun := true }) })) ∧
      (r.ret = none → r.replies = [] → r.events = [] → (∀ k x, s.slot lk k = some x → x.begun = true) →
        exec (.transmitStart lk) s = .next s)) ∧
    (r.tx ≠ none → exec (.transmitStart lk) s = .next s) ∧
    (∀ bytes, r.tx = some (.hub bytes) → exec (.transmitEnd lk) s =
      .next (s.withLink lk { r with tx := none, lineEnd := .ended })) ∧
    ∀ k x, r.tx = some (.forward k) → s.slot lk k = some x → x.complete = true →
      let sent : State := s.withLink lk
        { r with tx := none, lineEnd := .ended, fwd := r.fwd.set k none,
                 station := { r.station with forwardedTo := min (r.station.forwardedTo + 1) 4294967295 } }
      (x.group = none → (∀ b ∈ s.slk.broadcasts, s.groupOpen b.group = true) →
        exec (.transmitEnd lk) s = .next sent) ∧
      ∀ g src whole pre post, x.group = some g → src ≠ lk → s.slk.broadcasts = pre ++ ⟨g, src, whole⟩ :: post →
        (∀ b ∈ pre ++ post, b.group ≠ g ∧ s.groupOpen b.group = true) →
        let others : Prop := ∃ d j y, (d, j) ≠ (lk, k) ∧ s.slot d j = some y ∧ y.group = some g
        (others → exec (.transmitEnd lk) s =
          .next { sent with slk.broadcasts := pre ++ ⟨g, src, true⟩ :: post }) ∧
        (¬others → exec (.transmitEnd lk) s = .next (({ sent with slk.broadcasts := pre ++ post } : State).withLink src
          { s.link src with station := { (s.link src).station with
              forwardedFrom := min ((s.link src).station.forwardedFrom + 1) 4294967295 } }))
end

