-- ==== Sys2Proof/Laws/Memory.lean ====
section
/-! SUPPORT. Take memory keeps its canonical form, and a read after a write. -/

namespace Sys2Proof.Machine

theorem Memory.wfFrom_mono {lo lo' : Nat} (h : lo' ≤ lo) :
    ∀ m : List Host.Cell, Memory.wfFrom lo m = true → Memory.wfFrom lo' m = true
  | [], _ => rfl
  | (a, b) :: rest, hm => by
    simp only [Memory.wfFrom, Bool.and_eq_true, decide_eq_true_eq] at hm ⊢
    exact ⟨⟨⟨by omega, hm.1.1.2⟩, hm.1.2⟩, hm.2⟩

/-- The addresses of a memory in form. -/
theorem Memory.wfFrom_bounds {lo : Nat} :
    ∀ {m : List Host.Cell}, Memory.wfFrom lo m = true → ∀ c ∈ m, lo ≤ c.1 ∧ c.1 < takeBytes ∧ c.2 ≠ unlistedByte
  | [], _, c, hc => by simp at hc
  | (a, b) :: rest, hm, c, hc => by
    simp only [Memory.wfFrom, Bool.and_eq_true, decide_eq_true_eq, bne_iff_ne] at hm
    rcases List.mem_cons.1 hc with rfl | hc
    · exact ⟨hm.1.1.1, hm.1.1.2, hm.1.2⟩
    · have := Memory.wfFrom_bounds hm.2 c hc
      exact ⟨by omega, this.2⟩

/-- A filtered memory is in form. -/
theorem Memory.wfFrom_filter (p : Host.Cell → Bool) :
    ∀ {lo : Nat} {m : List Host.Cell}, Memory.wfFrom lo m = true → Memory.wfFrom lo (m.filter p) = true
  | _, [], _ => rfl
  | lo, (a, b) :: rest, hm => by
    simp only [Memory.wfFrom, Bool.and_eq_true, decide_eq_true_eq] at hm
    by_cases hp : p (a, b)
    · simp only [List.filter_cons, hp, if_true, Memory.wfFrom, Bool.and_eq_true, decide_eq_true_eq]
      exact ⟨hm.1, Memory.wfFrom_filter p hm.2⟩
    · simp only [List.filter_cons, hp]
      exact Memory.wfFrom_mono (by omega) _ (Memory.wfFrom_filter p hm.2)

/-- Two memories in form, one wholly below the other, join in form. -/
theorem Memory.wfFrom_append {hi : Nat} :
    ∀ {lo : Nat} {m n : List Host.Cell}, lo ≤ hi → Memory.wfFrom lo m = true → (∀ c ∈ m, c.1 < hi) →
      Memory.wfFrom hi n = true → Memory.wfFrom lo (m ++ n) = true
  | _, [], n, hlo, _, _, hn => Memory.wfFrom_mono hlo n hn
  | lo, (a, b) :: rest, n, _, hm, hb, hn => by
    simp only [Memory.wfFrom, Bool.and_eq_true, decide_eq_true_eq] at hm
    simp only [List.cons_append, Memory.wfFrom, Bool.and_eq_true, decide_eq_true_eq]
    have ha : a < hi := hb (a, b) (by simp)
    exact ⟨hm.1, Memory.wfFrom_append (by omega) hm.2 (fun c hc => hb c (by simp [hc])) hn⟩

/-- The cells of a run of bytes inside take memory are in form, and end with the run. -/
theorem cellsOf_wf : ∀ (bs : List Byte) (a : Nat), a + bs.length ≤ takeBytes →
    Memory.wfFrom a (cellsOf a bs) = true ∧ ∀ c ∈ cellsOf a bs, c.1 < a + bs.length
  | [], a, _ => ⟨rfl, by simp [cellsOf]⟩
  | b :: bs, a, h => by
    have hlen : a + 1 + bs.length ≤ takeBytes := by simp only [List.length_cons] at h; omega
    obtain ⟨h1, h2⟩ := cellsOf_wf bs (a + 1) hlen
    by_cases hb : b = unlistedByte
    · simp only [cellsOf, hb, if_true]
      exact ⟨Memory.wfFrom_mono (by omega) _ h1, fun c hc => by
        have := h2 c hc; simp only [List.length_cons]; omega⟩
    · simp only [cellsOf, hb, if_false, Memory.wfFrom, Bool.and_eq_true, decide_eq_true_eq, bne_iff_ne]
      refine ⟨⟨⟨⟨le_refl a, by simp only [List.length_cons] at h; omega⟩, hb⟩, h1⟩, fun c hc => ?_⟩
      rcases List.mem_cons.1 hc with rfl | hc
      · simp
      · have := h2 c hc; simp only [List.length_cons]; omega

/-- A write inside take memory keeps the form. -/
theorem writeBytes_wf {m : List Host.Cell} {a : Nat} {bs : List Byte} (hm : Memory.wf m = true)
    (h : a + bs.length ≤ takeBytes) : Memory.wf (writeBytes m a bs) = true := by
  have hcells := cellsOf_wf bs a h
  have hhigh : Memory.wfFrom (a + bs.length) (m.filter fun c => a + bs.length ≤ c.1) = true := by
    have : ∀ {lo : Nat} {n : List Host.Cell}, Memory.wfFrom lo n = true →
        Memory.wfFrom (a + bs.length) (n.filter fun c => a + bs.length ≤ c.1) = true := by
      intro lo n
      induction n generalizing lo with
      | nil => intro _; rfl
      | cons c rest ih =>
        obtain ⟨x, y⟩ := c
        intro hn
        simp only [Memory.wfFrom, Bool.and_eq_true, decide_eq_true_eq] at hn
        by_cases hx : a + bs.length ≤ x
        · simp only [List.filter_cons, hx, decide_true, if_true, Memory.wfFrom, Bool.and_eq_true, decide_eq_true_eq]
          exact ⟨⟨⟨trivial, hn.1.1.2⟩, hn.1.2⟩, Memory.wfFrom_filter _ hn.2⟩
        · simp only [List.filter_cons, hx, decide_false]
          exact ih hn.2
    exact this hm
  refine Memory.wfFrom_append (hi := a) (by omega) (Memory.wfFrom_filter _ hm) ?_ ?_
  · intro c hc
    simpa using (List.mem_filter.1 hc).2
  · exact Memory.wfFrom_append (hi := a + bs.length) (by omega) hcells.1 hcells.2 hhigh

theorem fitBlock_length (b : Block) : (fitBlock b).length = 48 := by
  simp [fitBlock, silence]

theorem blockBytes_length (b : Block) : (blockBytes b).length = 144 := by
  simp [blockBytes, List.length_flatMap, sampleBytes, fitBlock_length]

/-- A stored block lies inside take memory. -/
theorem blockAddr_bound (p : Page) (j : Nat) : blockAddr p j + 144 ≤ takeBytes := by
  have := p.isLt
  have := Nat.mod_lt j (show 256 > 0 by decide)
  simp only [blockAddr, takeBytes]
  omega

/-- Storing a block keeps the form. -/
theorem writeBlock_wf {m : List Host.Cell} {p : Page} {j : Nat} {b : Block} (hm : Memory.wf m = true) :
    Memory.wf (writeBlock m p j b) = true :=
  writeBytes_wf hm (by rw [blockBytes_length]; exact blockAddr_bound p j)

/-! ## Reads -/

theorem readByte_append_left {m n : List Host.Cell} {x : Nat} (h : ∀ c ∈ m, c.1 ≠ x) :
    readByte (m ++ n) x = readByte n x := by
  induction m with
  | nil => rfl
  | cons c rest ih =>
    obtain ⟨a, b⟩ := c
    have : a ≠ x := h (a, b) (by simp)
    simp only [List.cons_append, readByte, this, if_false]
    exact ih fun c hc => h c (by simp [hc])

theorem readByte_append_right {m n : List Host.Cell} {x : Nat} (h : ∀ c ∈ n, c.1 ≠ x) :
    readByte (m ++ n) x = readByte m x := by
  induction m with
  | nil =>
    have := readByte_append_left (m := n) (n := []) h
    simpa [readByte] using this
  | cons c rest ih =>
    obtain ⟨a, b⟩ := c
    simp only [List.cons_append, readByte]
    split <;> simp_all

theorem readByte_filter {p : Host.Cell → Bool} {m : List Host.Cell} {x : Nat} (h : ∀ c ∈ m, c.1 = x → p c = true) :
    readByte (m.filter p) x = readByte m x := by
  induction m with
  | nil => rfl
  | cons c rest ih =>
    obtain ⟨a, b⟩ := c
    have ih := ih fun c hc => h c (by simp [hc])
    by_cases ha : a = x
    · have hp := h (a, b) (by simp) ha
      subst ha
      simp only [List.filter_cons, hp, if_true, readByte]
    · by_cases hp : p (a, b)
      · simp only [List.filter_cons, hp, if_true, readByte, ha, if_false, ih]
      · simp only [List.filter_cons, hp, readByte, ha, if_false]
        exact ih

/-- A write leaves every byte outside it alone. -/
theorem readByte_writeBytes_outside {m : List Host.Cell} {a : Nat} {bs : List Byte} {x : Nat}
    (h : a + bs.length ≤ takeBytes) (hx : x < a ∨ a + bs.length ≤ x) :
    readByte (writeBytes m a bs) x = readByte m x := by
  have hcells := cellsOf_wf bs a h
  have hmid : ∀ c ∈ cellsOf a bs, c.1 ≠ x := fun c hc => by
    have h1 := (Memory.wfFrom_bounds hcells.1 c hc).1
    have h2 := hcells.2 c hc
    omega
  rcases hx with hx | hx
  · rw [writeBytes, readByte_append_right, readByte_filter]
    · intro c _ hc; simp; omega
    · intro c hc
      rcases List.mem_append.1 hc with hc | hc
      · exact hmid c hc
      · have := (List.mem_filter.1 hc).2
        simp at this; omega
  · rw [writeBytes, readByte_append_left, readByte_append_left hmid, readByte_filter]
    · intro c _ hc; simp; omega
    · intro c hc
      have := (List.mem_filter.1 hc).2
      simp at this; omega

theorem readByte_cellsOf : ∀ (bs : List Byte) (a i : Nat) (hi : i < bs.length), readByte (cellsOf a bs) (a + i) = bs[i]
  | [], _, _, hi => absurd hi (by simp)
  | b :: bs, a, 0, _ => by
    by_cases hb : b = unlistedByte
    · simp only [cellsOf, hb, if_true, Nat.add_zero]
      have : ∀ (bs : List Byte) (c : Nat), a < c → readByte (cellsOf c bs) a = unlistedByte := by
        intro bs
        induction bs with
        | nil => intro c _; rfl
        | cons d ds ih =>
          intro c hc
          by_cases hd : d = unlistedByte
          · simp only [cellsOf, hd, if_true]; exact ih (c + 1) (by omega)
          · simp only [cellsOf, hd, if_false, readByte]
            rw [if_neg (by omega)]; exact ih (c + 1) (by omega)
      simpa using this bs (a + 1) (by omega)
    · simp [cellsOf, hb, readByte]
  | b :: bs, a, i + 1, hi => by
    have ih := readByte_cellsOf bs (a + 1) i (by simpa using hi)
    have e : a + (i + 1) = a + 1 + i := by omega
    by_cases hb : b = unlistedByte
    · simp only [cellsOf, hb, if_true, e]; simpa using ih
    · simp only [cellsOf, hb, if_false, e, readByte]
      rw [if_neg (by omega)]; simpa using ih

/-- A read after a write to the same place gives the byte written. -/
theorem readByte_writeBytes_inside {m : List Host.Cell} {a : Nat} {bs : List Byte} {i : Nat} (hi : i < bs.length) :
    readByte (writeBytes m a bs) (a + i) = bs[i] := by
  have hlow : ∀ c ∈ m.filter (fun c => c.1 < a), c.1 ≠ a + i := fun c hc => by
    have := (List.mem_filter.1 hc).2
    simp at this; omega
  have hhigh : ∀ c ∈ m.filter (fun c => a + bs.length ≤ c.1), c.1 ≠ a + i := fun c hc => by
    have := (List.mem_filter.1 hc).2
    simp at this; omega
  rw [writeBytes, readByte_append_left hlow, readByte_append_right hhigh]
  exact readByte_cellsOf bs a i hi

end Sys2Proof.Machine
end

