-- ==== Sys2Proof/Laws/State.lean ====
section
/-! SUPPORT. What each named update of the state leaves in each field, and what the named reads answer after it. -/

namespace Sys2Proof.Machine

/-! ## Fields after an update -/

@[simp] theorem State.withTrack_cyc (s : State) (t : TrackId) (x : Track) : (s.withTrack t x).cyc = s.cyc := rfl
@[simp] theorem State.withTrack_pgp (s : State) (t : TrackId) (x : Track) : (s.withTrack t x).pgp = s.pgp := rfl
@[simp] theorem State.withTrack_pse (s : State) (t : TrackId) (x : Track) : (s.withTrack t x).pse = s.pse := rfl
@[simp] theorem State.withTrack_aqu (s : State) (t : TrackId) (x : Track) : (s.withTrack t x).aqu = s.aqu := rfl
@[simp] theorem State.withTrack_mxe (s : State) (t : TrackId) (x : Track) : (s.withTrack t x).mxe = s.mxe := rfl
@[simp] theorem State.withTrack_bne (s : State) (t : TrackId) (x : Track) : (s.withTrack t x).bne = s.bne := rfl
@[simp] theorem State.withTrack_tmc (s : State) (t : TrackId) (x : Track) : (s.withTrack t x).tmc = s.tmc := rfl
@[simp] theorem State.withTrack_smn (s : State) (t : TrackId) (x : Track) : (s.withTrack t x).smn = s.smn := rfl
@[simp] theorem State.withTrack_slk (s : State) (t : TrackId) (x : Track) : (s.withTrack t x).slk = s.slk := rfl
@[simp] theorem State.withTrack_rqu (s : State) (t : TrackId) (x : Track) : (s.withTrack t x).rqu = s.rqu := rfl
@[simp] theorem State.withTrack_mem (s : State) (t : TrackId) (x : Track) : (s.withTrack t x).mem = s.mem := rfl
@[simp] theorem State.withTrack_stopped (s : State) (t : TrackId) (x : Track) : (s.withTrack t x).stopped = s.stopped := rfl
@[simp] theorem State.withTrack_freeIndex (s : State) (t : TrackId) (x : Track) : (s.withTrack t x).freeIndex = s.freeIndex := rfl
@[simp] theorem State.withTrack_pending (s : State) (t : TrackId) (x : Track) : (s.withTrack t x).pending = s.pending := rfl

@[simp] theorem State.withLayer_cyc (s : State) (l : LayerId) (x : Option Layer) : (s.withLayer l x).cyc = s.cyc := rfl
@[simp] theorem State.withLayer_pgp (s : State) (l : LayerId) (x : Option Layer) : (s.withLayer l x).pgp = s.pgp := rfl
@[simp] theorem State.withLayer_pse (s : State) (l : LayerId) (x : Option Layer) : (s.withLayer l x).pse = s.pse := rfl
@[simp] theorem State.withLayer_aqu (s : State) (l : LayerId) (x : Option Layer) : (s.withLayer l x).aqu = s.aqu := rfl
@[simp] theorem State.withLayer_mxe (s : State) (l : LayerId) (x : Option Layer) : (s.withLayer l x).mxe = s.mxe := rfl
@[simp] theorem State.withLayer_bne (s : State) (l : LayerId) (x : Option Layer) : (s.withLayer l x).bne = s.bne := rfl
@[simp] theorem State.withLayer_tmc (s : State) (l : LayerId) (x : Option Layer) : (s.withLayer l x).tmc = s.tmc := rfl
@[simp] theorem State.withLayer_smn (s : State) (l : LayerId) (x : Option Layer) : (s.withLayer l x).smn = s.smn := rfl
@[simp] theorem State.withLayer_slk (s : State) (l : LayerId) (x : Option Layer) : (s.withLayer l x).slk = s.slk := rfl
@[simp] theorem State.withLayer_rqu (s : State) (l : LayerId) (x : Option Layer) : (s.withLayer l x).rqu = s.rqu := rfl
@[simp] theorem State.withLayer_mem (s : State) (l : LayerId) (x : Option Layer) : (s.withLayer l x).mem = s.mem := rfl
@[simp] theorem State.withLayer_stopped (s : State) (l : LayerId) (x : Option Layer) : (s.withLayer l x).stopped = s.stopped := rfl
@[simp] theorem State.withLayer_freeIndex (s : State) (l : LayerId) (x : Option Layer) : (s.withLayer l x).freeIndex = s.freeIndex := rfl
@[simp] theorem State.withLayer_pending (s : State) (l : LayerId) (x : Option Layer) : (s.withLayer l x).pending = s.pending := rfl

@[simp] theorem State.withInput_cyc (s : State) (i : Input) (x : InputRec) : (s.withInput i x).cyc = s.cyc := rfl
@[simp] theorem State.withInput_lys (s : State) (i : Input) (x : InputRec) : (s.withInput i x).lys = s.lys := rfl
@[simp] theorem State.withInput_pgp (s : State) (i : Input) (x : InputRec) : (s.withInput i x).pgp = s.pgp := rfl
@[simp] theorem State.withInput_aqu (s : State) (i : Input) (x : InputRec) : (s.withInput i x).aqu = s.aqu := rfl
@[simp] theorem State.withInput_mxe (s : State) (i : Input) (x : InputRec) : (s.withInput i x).mxe = s.mxe := rfl
@[simp] theorem State.withInput_bne (s : State) (i : Input) (x : InputRec) : (s.withInput i x).bne = s.bne := rfl
@[simp] theorem State.withInput_tmc (s : State) (i : Input) (x : InputRec) : (s.withInput i x).tmc = s.tmc := rfl
@[simp] theorem State.withInput_smn (s : State) (i : Input) (x : InputRec) : (s.withInput i x).smn = s.smn := rfl
@[simp] theorem State.withInput_slk (s : State) (i : Input) (x : InputRec) : (s.withInput i x).slk = s.slk := rfl
@[simp] theorem State.withInput_rqu (s : State) (i : Input) (x : InputRec) : (s.withInput i x).rqu = s.rqu := rfl
@[simp] theorem State.withInput_mem (s : State) (i : Input) (x : InputRec) : (s.withInput i x).mem = s.mem := rfl
@[simp] theorem State.withInput_stopped (s : State) (i : Input) (x : InputRec) : (s.withInput i x).stopped = s.stopped := rfl
@[simp] theorem State.withInput_freeIndex (s : State) (i : Input) (x : InputRec) : (s.withInput i x).freeIndex = s.freeIndex := rfl
@[simp] theorem State.withInput_pending (s : State) (i : Input) (x : InputRec) : (s.withInput i x).pending = s.pending := rfl

@[simp] theorem State.withPass_cyc (s : State) (i : Input) (x : Option Pass) : (s.withPass i x).cyc = s.cyc := rfl
@[simp] theorem State.withPass_lys (s : State) (i : Input) (x : Option Pass) : (s.withPass i x).lys = s.lys := rfl
@[simp] theorem State.withPass_pgp (s : State) (i : Input) (x : Option Pass) : (s.withPass i x).pgp = s.pgp := rfl
@[simp] theorem State.withPass_aqu (s : State) (i : Input) (x : Option Pass) : (s.withPass i x).aqu = s.aqu := rfl
@[simp] theorem State.withPass_mxe (s : State) (i : Input) (x : Option Pass) : (s.withPass i x).mxe = s.mxe := rfl
@[simp] theorem State.withPass_bne (s : State) (i : Input) (x : Option Pass) : (s.withPass i x).bne = s.bne := rfl
@[simp] theorem State.withPass_tmc (s : State) (i : Input) (x : Option Pass) : (s.withPass i x).tmc = s.tmc := rfl
@[simp] theorem State.withPass_smn (s : State) (i : Input) (x : Option Pass) : (s.withPass i x).smn = s.smn := rfl
@[simp] theorem State.withPass_slk (s : State) (i : Input) (x : Option Pass) : (s.withPass i x).slk = s.slk := rfl
@[simp] theorem State.withPass_rqu (s : State) (i : Input) (x : Option Pass) : (s.withPass i x).rqu = s.rqu := rfl
@[simp] theorem State.withPass_mem (s : State) (i : Input) (x : Option Pass) : (s.withPass i x).mem = s.mem := rfl
@[simp] theorem State.withPass_stopped (s : State) (i : Input) (x : Option Pass) : (s.withPass i x).stopped = s.stopped := rfl
@[simp] theorem State.withPass_freeIndex (s : State) (i : Input) (x : Option Pass) : (s.withPass i x).freeIndex = s.freeIndex := rfl
@[simp] theorem State.withPass_pending (s : State) (i : Input) (x : Option Pass) : (s.withPass i x).pending = s.pending := rfl

@[simp] theorem State.withLink_cyc (s : State) (lk : Link) (x : LinkRec) : (s.withLink lk x).cyc = s.cyc := rfl
@[simp] theorem State.withLink_lys (s : State) (lk : Link) (x : LinkRec) : (s.withLink lk x).lys = s.lys := rfl
@[simp] theorem State.withLink_pgp (s : State) (lk : Link) (x : LinkRec) : (s.withLink lk x).pgp = s.pgp := rfl
@[simp] theorem State.withLink_pse (s : State) (lk : Link) (x : LinkRec) : (s.withLink lk x).pse = s.pse := rfl
@[simp] theorem State.withLink_aqu (s : State) (lk : Link) (x : LinkRec) : (s.withLink lk x).aqu = s.aqu := rfl
@[simp] theorem State.withLink_mxe (s : State) (lk : Link) (x : LinkRec) : (s.withLink lk x).mxe = s.mxe := rfl
@[simp] theorem State.withLink_bne (s : State) (lk : Link) (x : LinkRec) : (s.withLink lk x).bne = s.bne := rfl
@[simp] theorem State.withLink_tmc (s : State) (lk : Link) (x : LinkRec) : (s.withLink lk x).tmc = s.tmc := rfl
@[simp] theorem State.withLink_smn (s : State) (lk : Link) (x : LinkRec) : (s.withLink lk x).smn = s.smn := rfl
@[simp] theorem State.withLink_rqu (s : State) (lk : Link) (x : LinkRec) : (s.withLink lk x).rqu = s.rqu := rfl
@[simp] theorem State.withLink_mem (s : State) (lk : Link) (x : LinkRec) : (s.withLink lk x).mem = s.mem := rfl
@[simp] theorem State.withLink_stopped (s : State) (lk : Link) (x : LinkRec) : (s.withLink lk x).stopped = s.stopped := rfl
@[simp] theorem State.withLink_freeIndex (s : State) (lk : Link) (x : LinkRec) : (s.withLink lk x).freeIndex = s.freeIndex := rfl
@[simp] theorem State.withLink_pending (s : State) (lk : Link) (x : LinkRec) : (s.withLink lk x).pending = s.pending := rfl

@[simp] theorem State.withCounters_cyc (s : State) (lk : Link) (x : StationCounters) : (s.withCounters lk x).cyc = s.cyc := rfl
@[simp] theorem State.withCounters_lys (s : State) (lk : Link) (x : StationCounters) : (s.withCounters lk x).lys = s.lys := rfl
@[simp] theorem State.withCounters_pgp (s : State) (lk : Link) (x : StationCounters) : (s.withCounters lk x).pgp = s.pgp := rfl
@[simp] theorem State.withCounters_pse (s : State) (lk : Link) (x : StationCounters) : (s.withCounters lk x).pse = s.pse := rfl
@[simp] theorem State.withCounters_aqu (s : State) (lk : Link) (x : StationCounters) : (s.withCounters lk x).aqu = s.aqu := rfl
@[simp] theorem State.withCounters_mxe (s : State) (lk : Link) (x : StationCounters) : (s.withCounters lk x).mxe = s.mxe := rfl
@[simp] theorem State.withCounters_bne (s : State) (lk : Link) (x : StationCounters) : (s.withCounters lk x).bne = s.bne := rfl
@[simp] theorem State.withCounters_tmc (s : State) (lk : Link) (x : StationCounters) : (s.withCounters lk x).tmc = s.tmc := rfl
@[simp] theorem State.withCounters_smn (s : State) (lk : Link) (x : StationCounters) : (s.withCounters lk x).smn = s.smn := rfl
@[simp] theorem State.withCounters_rqu (s : State) (lk : Link) (x : StationCounters) : (s.withCounters lk x).rqu = s.rqu := rfl
@[simp] theorem State.withCounters_mem (s : State) (lk : Link) (x : StationCounters) : (s.withCounters lk x).mem = s.mem := rfl
@[simp] theorem State.withCounters_stopped (s : State) (lk : Link) (x : StationCounters) : (s.withCounters lk x).stopped = s.stopped := rfl
@[simp] theorem State.withCounters_freeIndex (s : State) (lk : Link) (x : StationCounters) : (s.withCounters lk x).freeIndex = s.freeIndex := rfl
@[simp] theorem State.withCounters_pending (s : State) (lk : Link) (x : StationCounters) : (s.withCounters lk x).pending = s.pending := rfl

@[simp] theorem State.withStation_cyc (s : State) (lk : Link) (x : Settings) : (s.withStation lk x).cyc = s.cyc := rfl
@[simp] theorem State.withStation_lys (s : State) (lk : Link) (x : Settings) : (s.withStation lk x).lys = s.lys := rfl
@[simp] theorem State.withStation_pgp (s : State) (lk : Link) (x : Settings) : (s.withStation lk x).pgp = s.pgp := rfl
@[simp] theorem State.withStation_pse (s : State) (lk : Link) (x : Settings) : (s.withStation lk x).pse = s.pse := rfl
@[simp] theorem State.withStation_aqu (s : State) (lk : Link) (x : Settings) : (s.withStation lk x).aqu = s.aqu := rfl
@[simp] theorem State.withStation_mxe (s : State) (lk : Link) (x : Settings) : (s.withStation lk x).mxe = s.mxe := rfl
@[simp] theorem State.withStation_bne (s : State) (lk : Link) (x : Settings) : (s.withStation lk x).bne = s.bne := rfl
@[simp] theorem State.withStation_tmc (s : State) (lk : Link) (x : Settings) : (s.withStation lk x).tmc = s.tmc := rfl
@[simp] theorem State.withStation_smn (s : State) (lk : Link) (x : Settings) : (s.withStation lk x).smn = s.smn := rfl
@[simp] theorem State.withStation_slk (s : State) (lk : Link) (x : Settings) : (s.withStation lk x).slk = s.slk := rfl
@[simp] theorem State.withStation_mem (s : State) (lk : Link) (x : Settings) : (s.withStation lk x).mem = s.mem := rfl
@[simp] theorem State.withStation_stopped (s : State) (lk : Link) (x : Settings) : (s.withStation lk x).stopped = s.stopped := rfl
@[simp] theorem State.withStation_freeIndex (s : State) (lk : Link) (x : Settings) : (s.withStation lk x).freeIndex = s.freeIndex := rfl
@[simp] theorem State.withStation_pending (s : State) (lk : Link) (x : Settings) : (s.withStation lk x).pending = s.pending := rfl

@[simp] theorem State.withCyc_cyc (s : State) (x : Cyc) : (s.withCyc x).cyc = x := rfl
@[simp] theorem State.withCyc_lys (s : State) (x : Cyc) : (s.withCyc x).lys = s.lys := rfl
@[simp] theorem State.withCyc_pgp (s : State) (x : Cyc) : (s.withCyc x).pgp = s.pgp := rfl
@[simp] theorem State.withCyc_pse (s : State) (x : Cyc) : (s.withCyc x).pse = s.pse := rfl
@[simp] theorem State.withCyc_aqu (s : State) (x : Cyc) : (s.withCyc x).aqu = s.aqu := rfl
@[simp] theorem State.withCyc_mxe (s : State) (x : Cyc) : (s.withCyc x).mxe = s.mxe := rfl
@[simp] theorem State.withCyc_bne (s : State) (x : Cyc) : (s.withCyc x).bne = s.bne := rfl
@[simp] theorem State.withCyc_tmc (s : State) (x : Cyc) : (s.withCyc x).tmc = s.tmc := rfl
@[simp] theorem State.withCyc_smn (s : State) (x : Cyc) : (s.withCyc x).smn = s.smn := rfl
@[simp] theorem State.withCyc_slk (s : State) (x : Cyc) : (s.withCyc x).slk = s.slk := rfl
@[simp] theorem State.withCyc_rqu (s : State) (x : Cyc) : (s.withCyc x).rqu = s.rqu := rfl
@[simp] theorem State.withCyc_mem (s : State) (x : Cyc) : (s.withCyc x).mem = s.mem := rfl
@[simp] theorem State.withCyc_stopped (s : State) (x : Cyc) : (s.withCyc x).stopped = s.stopped := rfl
@[simp] theorem State.withCyc_freeIndex (s : State) (x : Cyc) : (s.withCyc x).freeIndex = s.freeIndex := rfl
@[simp] theorem State.withCyc_pending (s : State) (x : Cyc) : (s.withCyc x).pending = s.pending := rfl

@[simp] theorem State.withPgp_cyc (s : State) (x : Pgp) : (s.withPgp x).cyc = s.cyc := rfl
@[simp] theorem State.withPgp_lys (s : State) (x : Pgp) : (s.withPgp x).lys = s.lys := rfl
@[simp] theorem State.withPgp_pgp (s : State) (x : Pgp) : (s.withPgp x).pgp = x := rfl
@[simp] theorem State.withPgp_pse (s : State) (x : Pgp) : (s.withPgp x).pse = s.pse := rfl
@[simp] theorem State.withPgp_aqu (s : State) (x : Pgp) : (s.withPgp x).aqu = s.aqu := rfl
@[simp] theorem State.withPgp_mxe (s : State) (x : Pgp) : (s.withPgp x).mxe = s.mxe := rfl
@[simp] theorem State.withPgp_bne (s : State) (x : Pgp) : (s.withPgp x).bne = s.bne := rfl
@[simp] theorem State.withPgp_tmc (s : State) (x : Pgp) : (s.withPgp x).tmc = s.tmc := rfl
@[simp] theorem State.withPgp_smn (s : State) (x : Pgp) : (s.withPgp x).smn = s.smn := rfl
@[simp] theorem State.withPgp_slk (s : State) (x : Pgp) : (s.withPgp x).slk = s.slk := rfl
@[simp] theorem State.withPgp_rqu (s : State) (x : Pgp) : (s.withPgp x).rqu = s.rqu := rfl
@[simp] theorem State.withPgp_mem (s : State) (x : Pgp) : (s.withPgp x).mem = s.mem := rfl
@[simp] theorem State.withPgp_stopped (s : State) (x : Pgp) : (s.withPgp x).stopped = s.stopped := rfl
@[simp] theorem State.withPgp_freeIndex (s : State) (x : Pgp) : (s.withPgp x).freeIndex = s.freeIndex := rfl
@[simp] theorem State.withPgp_pending (s : State) (x : Pgp) : (s.withPgp x).pending = s.pending := rfl

@[simp] theorem State.withAqu_cyc (s : State) (x : Aqu) : (s.withAqu x).cyc = s.cyc := rfl
@[simp] theorem State.withAqu_lys (s : State) (x : Aqu) : (s.withAqu x).lys = s.lys := rfl
@[simp] theorem State.withAqu_pgp (s : State) (x : Aqu) : (s.withAqu x).pgp = s.pgp := rfl
@[simp] theorem State.withAqu_pse (s : State) (x : Aqu) : (s.withAqu x).pse = s.pse := rfl
@[simp] theorem State.withAqu_aqu (s : State) (x : Aqu) : (s.withAqu x).aqu = x := rfl
@[simp] theorem State.withAqu_mxe (s : State) (x : Aqu) : (s.withAqu x).mxe = s.mxe := rfl
@[simp] theorem State.withAqu_bne (s : State) (x : Aqu) : (s.withAqu x).bne = s.bne := rfl
@[simp] theorem State.withAqu_tmc (s : State) (x : Aqu) : (s.withAqu x).tmc = s.tmc := rfl
@[simp] theorem State.withAqu_smn (s : State) (x : Aqu) : (s.withAqu x).smn = s.smn := rfl
@[simp] theorem State.withAqu_slk (s : State) (x : Aqu) : (s.withAqu x).slk = s.slk := rfl
@[simp] theorem State.withAqu_rqu (s : State) (x : Aqu) : (s.withAqu x).rqu = s.rqu := rfl
@[simp] theorem State.withAqu_mem (s : State) (x : Aqu) : (s.withAqu x).mem = s.mem := rfl
@[simp] theorem State.withAqu_stopped (s : State) (x : Aqu) : (s.withAqu x).stopped = s.stopped := rfl
@[simp] theorem State.withAqu_freeIndex (s : State) (x : Aqu) : (s.withAqu x).freeIndex = s.freeIndex := rfl
@[simp] theorem State.withAqu_pending (s : State) (x : Aqu) : (s.withAqu x).pending = s.pending := rfl

@[simp] theorem State.withMxe_cyc (s : State) (x : Mxe) : (s.withMxe x).cyc = s.cyc := rfl
@[simp] theorem State.withMxe_lys (s : State) (x : Mxe) : (s.withMxe x).lys = s.lys := rfl
@[simp] theorem State.withMxe_pgp (s : State) (x : Mxe) : (s.withMxe x).pgp = s.pgp := rfl
@[simp] theorem State.withMxe_pse (s : State) (x : Mxe) : (s.withMxe x).pse = s.pse := rfl
@[simp] theorem State.withMxe_aqu (s : State) (x : Mxe) : (s.withMxe x).aqu = s.aqu := rfl
@[simp] theorem State.withMxe_mxe (s : State) (x : Mxe) : (s.withMxe x).mxe = x := rfl
@[simp] theorem State.withMxe_bne (s : State) (x : Mxe) : (s.withMxe x).bne = s.bne := rfl
@[simp] theorem State.withMxe_tmc (s : State) (x : Mxe) : (s.withMxe x).tmc = s.tmc := rfl
@[simp] theorem State.withMxe_smn (s : State) (x : Mxe) : (s.withMxe x).smn = s.smn := rfl
@[simp] theorem State.withMxe_slk (s : State) (x : Mxe) : (s.withMxe x).slk = s.slk := rfl
@[simp] theorem State.withMxe_rqu (s : State) (x : Mxe) : (s.withMxe x).rqu = s.rqu := rfl
@[simp] theorem State.withMxe_mem (s : State) (x : Mxe) : (s.withMxe x).mem = s.mem := rfl
@[simp] theorem State.withMxe_stopped (s : State) (x : Mxe) : (s.withMxe x).stopped = s.stopped := rfl
@[simp] theorem State.withMxe_freeIndex (s : State) (x : Mxe) : (s.withMxe x).freeIndex = s.freeIndex := rfl
@[simp] theorem State.withMxe_pending (s : State) (x : Mxe) : (s.withMxe x).pending = s.pending := rfl

@[simp] theorem State.withBne_cyc (s : State) (x : Bne) : (s.withBne x).cyc = s.cyc := rfl
@[simp] theorem State.withBne_lys (s : State) (x : Bne) : (s.withBne x).lys = s.lys := rfl
@[simp] theorem State.withBne_pgp (s : State) (x : Bne) : (s.withBne x).pgp = s.pgp := rfl
@[simp] theorem State.withBne_pse (s : State) (x : Bne) : (s.withBne x).pse = s.pse := rfl
@[simp] theorem State.withBne_aqu (s : State) (x : Bne) : (s.withBne x).aqu = s.aqu := rfl
@[simp] theorem State.withBne_mxe (s : State) (x : Bne) : (s.withBne x).mxe = s.mxe := rfl
@[simp] theorem State.withBne_bne (s : State) (x : Bne) : (s.withBne x).bne = x := rfl
@[simp] theorem State.withBne_tmc (s : State) (x : Bne) : (s.withBne x).tmc = s.tmc := rfl
@[simp] theorem State.withBne_smn (s : State) (x : Bne) : (s.withBne x).smn = s.smn := rfl
@[simp] theorem State.withBne_slk (s : State) (x : Bne) : (s.withBne x).slk = s.slk := rfl
@[simp] theorem State.withBne_rqu (s : State) (x : Bne) : (s.withBne x).rqu = s.rqu := rfl
@[simp] theorem State.withBne_mem (s : State) (x : Bne) : (s.withBne x).mem = s.mem := rfl
@[simp] theorem State.withBne_stopped (s : State) (x : Bne) : (s.withBne x).stopped = s.stopped := rfl
@[simp] theorem State.withBne_freeIndex (s : State) (x : Bne) : (s.withBne x).freeIndex = s.freeIndex := rfl
@[simp] theorem State.withBne_pending (s : State) (x : Bne) : (s.withBne x).pending = s.pending := rfl

@[simp] theorem State.withTmc_cyc (s : State) (x : Tmc) : (s.withTmc x).cyc = s.cyc := rfl
@[simp] theorem State.withTmc_lys (s : State) (x : Tmc) : (s.withTmc x).lys = s.lys := rfl
@[simp] theorem State.withTmc_pgp (s : State) (x : Tmc) : (s.withTmc x).pgp = s.pgp := rfl
@[simp] theorem State.withTmc_pse (s : State) (x : Tmc) : (s.withTmc x).pse = s.pse := rfl
@[simp] theorem State.withTmc_aqu (s : State) (x : Tmc) : (s.withTmc x).aqu = s.aqu := rfl
@[simp] theorem State.withTmc_mxe (s : State) (x : Tmc) : (s.withTmc x).mxe = s.mxe := rfl
@[simp] theorem State.withTmc_bne (s : State) (x : Tmc) : (s.withTmc x).bne = s.bne := rfl
@[simp] theorem State.withTmc_tmc (s : State) (x : Tmc) : (s.withTmc x).tmc = x := rfl
@[simp] theorem State.withTmc_smn (s : State) (x : Tmc) : (s.withTmc x).smn = s.smn := rfl
@[simp] theorem State.withTmc_slk (s : State) (x : Tmc) : (s.withTmc x).slk = s.slk := rfl
@[simp] theorem State.withTmc_rqu (s : State) (x : Tmc) : (s.withTmc x).rqu = s.rqu := rfl
@[simp] theorem State.withTmc_mem (s : State) (x : Tmc) : (s.withTmc x).mem = s.mem := rfl
@[simp] theorem State.withTmc_stopped (s : State) (x : Tmc) : (s.withTmc x).stopped = s.stopped := rfl
@[simp] theorem State.withTmc_freeIndex (s : State) (x : Tmc) : (s.withTmc x).freeIndex = s.freeIndex := rfl
@[simp] theorem State.withTmc_pending (s : State) (x : Tmc) : (s.withTmc x).pending = s.pending := rfl

@[simp] theorem State.withSmn_cyc (s : State) (x : Smn) : (s.withSmn x).cyc = s.cyc := rfl
@[simp] theorem State.withSmn_lys (s : State) (x : Smn) : (s.withSmn x).lys = s.lys := rfl
@[simp] theorem State.withSmn_pgp (s : State) (x : Smn) : (s.withSmn x).pgp = s.pgp := rfl
@[simp] theorem State.withSmn_pse (s : State) (x : Smn) : (s.withSmn x).pse = s.pse := rfl
@[simp] theorem State.withSmn_aqu (s : State) (x : Smn) : (s.withSmn x).aqu = s.aqu := rfl
@[simp] theorem State.withSmn_mxe (s : State) (x : Smn) : (s.withSmn x).mxe = s.mxe := rfl
@[simp] theorem State.withSmn_bne (s : State) (x : Smn) : (s.withSmn x).bne = s.bne := rfl
@[simp] theorem State.withSmn_tmc (s : State) (x : Smn) : (s.withSmn x).tmc = s.tmc := rfl
@[simp] theorem State.withSmn_smn (s : State) (x : Smn) : (s.withSmn x).smn = x := rfl
@[simp] theorem State.withSmn_slk (s : State) (x : Smn) : (s.withSmn x).slk = s.slk := rfl
@[simp] theorem State.withSmn_rqu (s : State) (x : Smn) : (s.withSmn x).rqu = s.rqu := rfl
@[simp] theorem State.withSmn_mem (s : State) (x : Smn) : (s.withSmn x).mem = s.mem := rfl
@[simp] theorem State.withSmn_stopped (s : State) (x : Smn) : (s.withSmn x).stopped = s.stopped := rfl
@[simp] theorem State.withSmn_freeIndex (s : State) (x : Smn) : (s.withSmn x).freeIndex = s.freeIndex := rfl
@[simp] theorem State.withSmn_pending (s : State) (x : Smn) : (s.withSmn x).pending = s.pending := rfl

@[simp] theorem State.withMem_cyc (s : State) (x : List Host.Cell) : (s.withMem x).cyc = s.cyc := rfl
@[simp] theorem State.withMem_lys (s : State) (x : List Host.Cell) : (s.withMem x).lys = s.lys := rfl
@[simp] theorem State.withMem_pgp (s : State) (x : List Host.Cell) : (s.withMem x).pgp = s.pgp := rfl
@[simp] theorem State.withMem_pse (s : State) (x : List Host.Cell) : (s.withMem x).pse = s.pse := rfl
@[simp] theorem State.withMem_aqu (s : State) (x : List Host.Cell) : (s.withMem x).aqu = s.aqu := rfl
@[simp] theorem State.withMem_mxe (s : State) (x : List Host.Cell) : (s.withMem x).mxe = s.mxe := rfl
@[simp] theorem State.withMem_bne (s : State) (x : List Host.Cell) : (s.withMem x).bne = s.bne := rfl
@[simp] theorem State.withMem_tmc (s : State) (x : List Host.Cell) : (s.withMem x).tmc = s.tmc := rfl
@[simp] theorem State.withMem_smn (s : State) (x : List Host.Cell) : (s.withMem x).smn = s.smn := rfl
@[simp] theorem State.withMem_slk (s : State) (x : List Host.Cell) : (s.withMem x).slk = s.slk := rfl
@[simp] theorem State.withMem_rqu (s : State) (x : List Host.Cell) : (s.withMem x).rqu = s.rqu := rfl
@[simp] theorem State.withMem_mem (s : State) (x : List Host.Cell) : (s.withMem x).mem = x := rfl
@[simp] theorem State.withMem_stopped (s : State) (x : List Host.Cell) : (s.withMem x).stopped = s.stopped := rfl
@[simp] theorem State.withMem_freeIndex (s : State) (x : List Host.Cell) : (s.withMem x).freeIndex = s.freeIndex := rfl
@[simp] theorem State.withMem_pending (s : State) (x : List Host.Cell) : (s.withMem x).pending = s.pending := rfl

@[simp] theorem State.nextFree_cyc (s : State) : s.nextFree.cyc = s.cyc := rfl
@[simp] theorem State.nextFree_lys (s : State) : s.nextFree.lys = s.lys := rfl
@[simp] theorem State.nextFree_pgp (s : State) : s.nextFree.pgp = s.pgp := rfl
@[simp] theorem State.nextFree_pse (s : State) : s.nextFree.pse = s.pse := rfl
@[simp] theorem State.nextFree_aqu (s : State) : s.nextFree.aqu = s.aqu := rfl
@[simp] theorem State.nextFree_mxe (s : State) : s.nextFree.mxe = s.mxe := rfl
@[simp] theorem State.nextFree_bne (s : State) : s.nextFree.bne = s.bne := rfl
@[simp] theorem State.nextFree_tmc (s : State) : s.nextFree.tmc = s.tmc := rfl
@[simp] theorem State.nextFree_smn (s : State) : s.nextFree.smn = s.smn := rfl
@[simp] theorem State.nextFree_slk (s : State) : s.nextFree.slk = s.slk := rfl
@[simp] theorem State.nextFree_rqu (s : State) : s.nextFree.rqu = s.rqu := rfl
@[simp] theorem State.nextFree_mem (s : State) : s.nextFree.mem = s.mem := rfl
@[simp] theorem State.nextFree_stopped (s : State) : s.nextFree.stopped = s.stopped := rfl
@[simp] theorem State.nextFree_pending (s : State) : s.nextFree.pending = s.pending := rfl

/-! ## The counters of the tables -/

@[simp] theorem State.withTrack_lys_serials (s : State) (t : TrackId) (x : Track) : (s.withTrack t x).lys.serials = s.lys.serials := rfl
@[simp] theorem State.withTrack_lys_parks (s : State) (t : TrackId) (x : Track) : (s.withTrack t x).lys.parks = s.lys.parks := rfl
@[simp] theorem State.withLayer_lys_serials (s : State) (l : LayerId) (x : Option Layer) : (s.withLayer l x).lys.serials = s.lys.serials := rfl
@[simp] theorem State.withLayer_lys_parks (s : State) (l : LayerId) (x : Option Layer) : (s.withLayer l x).lys.parks = s.lys.parks := rfl
@[simp] theorem State.withTrack_lys_layers (s : State) (t : TrackId) (x : Track) : (s.withTrack t x).lys.layers = s.lys.layers := rfl
@[simp] theorem State.withLayer_lys_tracks (s : State) (l : LayerId) (x : Option Layer) : (s.withLayer l x).lys.tracks = s.lys.tracks := rfl
@[simp] theorem State.withInput_pse_openings (s : State) (i : Input) (x : InputRec) : (s.withInput i x).pse.openings = s.pse.openings := rfl
@[simp] theorem State.withPass_pse_openings (s : State) (i : Input) (x : Option Pass) : (s.withPass i x).pse.openings = s.pse.openings := rfl
@[simp] theorem State.withLink_slk_broadcasts (s : State) (lk : Link) (x : LinkRec) : (s.withLink lk x).slk.broadcasts = s.slk.broadcasts := rfl
@[simp] theorem State.withLink_slk_nextGroup (s : State) (lk : Link) (x : LinkRec) : (s.withLink lk x).slk.nextGroup = s.slk.nextGroup := rfl
@[simp] theorem State.withCounters_slk_broadcasts (s : State) (lk : Link) (x : StationCounters) : (s.withCounters lk x).slk.broadcasts = s.slk.broadcasts := rfl
@[simp] theorem State.withCounters_slk_nextGroup (s : State) (lk : Link) (x : StationCounters) : (s.withCounters lk x).slk.nextGroup = s.slk.nextGroup := rfl
@[simp] theorem State.withStation_rqu_pointer (s : State) (lk : Link) (x : Settings) : (s.withStation lk x).rqu.pointer = s.rqu.pointer := rfl

/-! ## Reads after an update -/

@[simp] theorem State.withTrack_layer (s : State) (t : TrackId) (x : Track) (k : LayerId) : (s.withTrack t x).layer k = s.layer k := rfl
@[simp] theorem State.withTrack_input (s : State) (t : TrackId) (x : Track) (j : Input) : (s.withTrack t x).input j = s.input j := rfl
@[simp] theorem State.withTrack_pass (s : State) (t : TrackId) (x : Track) (j : Input) : (s.withTrack t x).pass j = s.pass j := rfl
@[simp] theorem State.withTrack_link (s : State) (t : TrackId) (x : Track) (m : Link) : (s.withTrack t x).link m = s.link m := rfl
@[simp] theorem State.withTrack_station (s : State) (t : TrackId) (x : Track) (m : Link) : (s.withTrack t x).station m = s.station m := rfl

@[simp] theorem State.withLayer_track (s : State) (l : LayerId) (x : Option Layer) (u : TrackId) : (s.withLayer l x).track u = s.track u := rfl
@[simp] theorem State.withLayer_input (s : State) (l : LayerId) (x : Option Layer) (j : Input) : (s.withLayer l x).input j = s.input j := rfl
@[simp] theorem State.withLayer_pass (s : State) (l : LayerId) (x : Option Layer) (j : Input) : (s.withLayer l x).pass j = s.pass j := rfl
@[simp] theorem State.withLayer_link (s : State) (l : LayerId) (x : Option Layer) (m : Link) : (s.withLayer l x).link m = s.link m := rfl
@[simp] theorem State.withLayer_station (s : State) (l : LayerId) (x : Option Layer) (m : Link) : (s.withLayer l x).station m = s.station m := rfl

@[simp] theorem State.withInput_track (s : State) (i : Input) (x : InputRec) (u : TrackId) : (s.withInput i x).track u = s.track u := rfl
@[simp] theorem State.withInput_layer (s : State) (i : Input) (x : InputRec) (k : LayerId) : (s.withInput i x).layer k = s.layer k := rfl
@[simp] theorem State.withInput_link (s : State) (i : Input) (x : InputRec) (m : Link) : (s.withInput i x).link m = s.link m := rfl
@[simp] theorem State.withInput_station (s : State) (i : Input) (x : InputRec) (m : Link) : (s.withInput i x).station m = s.station m := rfl

@[simp] theorem State.withPass_track (s : State) (i : Input) (x : Option Pass) (u : TrackId) : (s.withPass i x).track u = s.track u := rfl
@[simp] theorem State.withPass_layer (s : State) (i : Input) (x : Option Pass) (k : LayerId) : (s.withPass i x).layer k = s.layer k := rfl
@[simp] theorem State.withPass_link (s : State) (i : Input) (x : Option Pass) (m : Link) : (s.withPass i x).link m = s.link m := rfl
@[simp] theorem State.withPass_station (s : State) (i : Input) (x : Option Pass) (m : Link) : (s.withPass i x).station m = s.station m := rfl

@[simp] theorem State.withLink_track (s : State) (lk : Link) (x : LinkRec) (u : TrackId) : (s.withLink lk x).track u = s.track u := rfl
@[simp] theorem State.withLink_layer (s : State) (lk : Link) (x : LinkRec) (k : LayerId) : (s.withLink lk x).layer k = s.layer k := rfl
@[simp] theorem State.withLink_input (s : State) (lk : Link) (x : LinkRec) (j : Input) : (s.withLink lk x).input j = s.input j := rfl
@[simp] theorem State.withLink_pass (s : State) (lk : Link) (x : LinkRec) (j : Input) : (s.withLink lk x).pass j = s.pass j := rfl
@[simp] theorem State.withLink_station (s : State) (lk : Link) (x : LinkRec) (m : Link) : (s.withLink lk x).station m = s.station m := rfl

@[simp] theorem State.withCounters_track (s : State) (lk : Link) (x : StationCounters) (u : TrackId) : (s.withCounters lk x).track u = s.track u := rfl
@[simp] theorem State.withCounters_layer (s : State) (lk : Link) (x : StationCounters) (k : LayerId) : (s.withCounters lk x).layer k = s.layer k := rfl
@[simp] theorem State.withCounters_input (s : State) (lk : Link) (x : StationCounters) (j : Input) : (s.withCounters lk x).input j = s.input j := rfl
@[simp] theorem State.withCounters_pass (s : State) (lk : Link) (x : StationCounters) (j : Input) : (s.withCounters lk x).pass j = s.pass j := rfl
@[simp] theorem State.withCounters_station (s : State) (lk : Link) (x : StationCounters) (m : Link) : (s.withCounters lk x).station m = s.station m := rfl

@[simp] theorem State.withStation_track (s : State) (lk : Link) (x : Settings) (u : TrackId) : (s.withStation lk x).track u = s.track u := rfl
@[simp] theorem State.withStation_layer (s : State) (lk : Link) (x : Settings) (k : LayerId) : (s.withStation lk x).layer k = s.layer k := rfl
@[simp] theorem State.withStation_input (s : State) (lk : Link) (x : Settings) (j : Input) : (s.withStation lk x).input j = s.input j := rfl
@[simp] theorem State.withStation_pass (s : State) (lk : Link) (x : Settings) (j : Input) : (s.withStation lk x).pass j = s.pass j := rfl
@[simp] theorem State.withStation_link (s : State) (lk : Link) (x : Settings) (m : Link) : (s.withStation lk x).link m = s.link m := rfl

@[simp] theorem State.withCyc_track (s : State) (x : Cyc) (u : TrackId) : (s.withCyc x).track u = s.track u := rfl
@[simp] theorem State.withCyc_layer (s : State) (x : Cyc) (k : LayerId) : (s.withCyc x).layer k = s.layer k := rfl
@[simp] theorem State.withCyc_input (s : State) (x : Cyc) (j : Input) : (s.withCyc x).input j = s.input j := rfl
@[simp] theorem State.withCyc_pass (s : State) (x : Cyc) (j : Input) : (s.withCyc x).pass j = s.pass j := rfl
@[simp] theorem State.withCyc_link (s : State) (x : Cyc) (m : Link) : (s.withCyc x).link m = s.link m := rfl
@[simp] theorem State.withCyc_station (s : State) (x : Cyc) (m : Link) : (s.withCyc x).station m = s.station m := rfl

@[simp] theorem State.withPgp_track (s : State) (x : Pgp) (u : TrackId) : (s.withPgp x).track u = s.track u := rfl
@[simp] theorem State.withPgp_layer (s : State) (x : Pgp) (k : LayerId) : (s.withPgp x).layer k = s.layer k := rfl
@[simp] theorem State.withPgp_input (s : State) (x : Pgp) (j : Input) : (s.withPgp x).input j = s.input j := rfl
@[simp] theorem State.withPgp_pass (s : State) (x : Pgp) (j : Input) : (s.withPgp x).pass j = s.pass j := rfl
@[simp] theorem State.withPgp_link (s : State) (x : Pgp) (m : Link) : (s.withPgp x).link m = s.link m := rfl
@[simp] theorem State.withPgp_station (s : State) (x : Pgp) (m : Link) : (s.withPgp x).station m = s.station m := rfl

@[simp] theorem State.withAqu_track (s : State) (x : Aqu) (u : TrackId) : (s.withAqu x).track u = s.track u := rfl
@[simp] theorem State.withAqu_layer (s : State) (x : Aqu) (k : LayerId) : (s.withAqu x).layer k = s.layer k := rfl
@[simp] theorem State.withAqu_input (s : State) (x : Aqu) (j : Input) : (s.withAqu x).input j = s.input j := rfl
@[simp] theorem State.withAqu_pass (s : State) (x : Aqu) (j : Input) : (s.withAqu x).pass j = s.pass j := rfl
@[simp] theorem State.withAqu_link (s : State) (x : Aqu) (m : Link) : (s.withAqu x).link m = s.link m := rfl
@[simp] theorem State.withAqu_station (s : State) (x : Aqu) (m : Link) : (s.withAqu x).station m = s.station m := rfl

@[simp] theorem State.withMxe_track (s : State) (x : Mxe) (u : TrackId) : (s.withMxe x).track u = s.track u := rfl
@[simp] theorem State.withMxe_layer (s : State) (x : Mxe) (k : LayerId) : (s.withMxe x).layer k = s.layer k := rfl
@[simp] theorem State.withMxe_input (s : State) (x : Mxe) (j : Input) : (s.withMxe x).input j = s.input j := rfl
@[simp] theorem State.withMxe_pass (s : State) (x : Mxe) (j : Input) : (s.withMxe x).pass j = s.pass j := rfl
@[simp] theorem State.withMxe_link (s : State) (x : Mxe) (m : Link) : (s.withMxe x).link m = s.link m := rfl
@[simp] theorem State.withMxe_station (s : State) (x : Mxe) (m : Link) : (s.withMxe x).station m = s.station m := rfl

@[simp] theorem State.withBne_track (s : State) (x : Bne) (u : TrackId) : (s.withBne x).track u = s.track u := rfl
@[simp] theorem State.withBne_layer (s : State) (x : Bne) (k : LayerId) : (s.withBne x).layer k = s.layer k := rfl
@[simp] theorem State.withBne_input (s : State) (x : Bne) (j : Input) : (s.withBne x).input j = s.input j := rfl
@[simp] theorem State.withBne_pass (s : State) (x : Bne) (j : Input) : (s.withBne x).pass j = s.pass j := rfl
@[simp] theorem State.withBne_link (s : State) (x : Bne) (m : Link) : (s.withBne x).link m = s.link m := rfl
@[simp] theorem State.withBne_station (s : State) (x : Bne) (m : Link) : (s.withBne x).station m = s.station m := rfl

@[simp] theorem State.withTmc_track (s : State) (x : Tmc) (u : TrackId) : (s.withTmc x).track u = s.track u := rfl
@[simp] theorem State.withTmc_layer (s : State) (x : Tmc) (k : LayerId) : (s.withTmc x).layer k = s.layer k := rfl
@[simp] theorem State.withTmc_input (s : State) (x : Tmc) (j : Input) : (s.withTmc x).input j = s.input j := rfl
@[simp] theorem State.withTmc_pass (s : State) (x : Tmc) (j : Input) : (s.withTmc x).pass j = s.pass j := rfl
@[simp] theorem State.withTmc_link (s : State) (x : Tmc) (m : Link) : (s.withTmc x).link m = s.link m := rfl
@[simp] theorem State.withTmc_station (s : State) (x : Tmc) (m : Link) : (s.withTmc x).station m = s.station m := rfl

@[simp] theorem State.withSmn_track (s : State) (x : Smn) (u : TrackId) : (s.withSmn x).track u = s.track u := rfl
@[simp] theorem State.withSmn_layer (s : State) (x : Smn) (k : LayerId) : (s.withSmn x).layer k = s.layer k := rfl
@[simp] theorem State.withSmn_input (s : State) (x : Smn) (j : Input) : (s.withSmn x).input j = s.input j := rfl
@[simp] theorem State.withSmn_pass (s : State) (x : Smn) (j : Input) : (s.withSmn x).pass j = s.pass j := rfl
@[simp] theorem State.withSmn_link (s : State) (x : Smn) (m : Link) : (s.withSmn x).link m = s.link m := rfl
@[simp] theorem State.withSmn_station (s : State) (x : Smn) (m : Link) : (s.withSmn x).station m = s.station m := rfl

@[simp] theorem State.withMem_track (s : State) (x : List Host.Cell) (u : TrackId) : (s.withMem x).track u = s.track u := rfl
@[simp] theorem State.withMem_layer (s : State) (x : List Host.Cell) (k : LayerId) : (s.withMem x).layer k = s.layer k := rfl
@[simp] theorem State.withMem_input (s : State) (x : List Host.Cell) (j : Input) : (s.withMem x).input j = s.input j := rfl
@[simp] theorem State.withMem_pass (s : State) (x : List Host.Cell) (j : Input) : (s.withMem x).pass j = s.pass j := rfl
@[simp] theorem State.withMem_link (s : State) (x : List Host.Cell) (m : Link) : (s.withMem x).link m = s.link m := rfl
@[simp] theorem State.withMem_station (s : State) (x : List Host.Cell) (m : Link) : (s.withMem x).station m = s.station m := rfl

@[simp] theorem State.nextFree_track (s : State) (u : TrackId) : s.nextFree.track u = s.track u := rfl
@[simp] theorem State.nextFree_layer (s : State) (k : LayerId) : s.nextFree.layer k = s.layer k := rfl
@[simp] theorem State.nextFree_input (s : State) (j : Input) : s.nextFree.input j = s.input j := rfl
@[simp] theorem State.nextFree_pass (s : State) (j : Input) : s.nextFree.pass j = s.pass j := rfl
@[simp] theorem State.nextFree_link (s : State) (m : Link) : s.nextFree.link m = s.link m := rfl
@[simp] theorem State.nextFree_station (s : State) (m : Link) : s.nextFree.station m = s.station m := rfl

/-! ## The entry written, and the others -/

theorem vector_set_ne {α : Type} {n : Nat} (v : Vector α n) (i j : Fin n) (x : α) (h : j ≠ i) :
    (v.set i x)[j] = v[j] := by
  have : i.val ≠ j.val := fun e => h (Fin.ext e.symm)
  simp [this]

theorem vector_set_eq {α : Type} {n : Nat} (v : Vector α n) (i : Fin n) (x : α) : (v.set i x)[i] = x := by simp

@[simp] theorem State.withTrack_track_same (s : State) (t : TrackId) (x : Track) : (s.withTrack t x).track t = x :=
  vector_set_eq _ _ _

theorem State.withTrack_track_ne (s : State) {t u : TrackId} (x : Track) (h : u ≠ t) : (s.withTrack t x).track u = s.track u :=
  vector_set_ne _ _ _ _ h

theorem State.withTrack_track (s : State) (t u : TrackId) (x : Track) :
    (s.withTrack t x).track u = if u = t then x else s.track u := by
  by_cases h : u = t
  · subst h; simp
  · simp [h, State.withTrack_track_ne s x h]

@[simp] theorem State.withLayer_layer_same (s : State) (t : LayerId) (x : Option Layer) : (s.withLayer t x).layer t = x :=
  vector_set_eq _ _ _

theorem State.withLayer_layer_ne (s : State) {t u : LayerId} (x : Option Layer) (h : u ≠ t) : (s.withLayer t x).layer u = s.layer u :=
  vector_set_ne _ _ _ _ h

theorem State.withLayer_layer (s : State) (t u : LayerId) (x : Option Layer) :
    (s.withLayer t x).layer u = if u = t then x else s.layer u := by
  by_cases h : u = t
  · subst h; simp
  · simp [h, State.withLayer_layer_ne s x h]

@[simp] theorem State.withInput_input_same (s : State) (t : Input) (x : InputRec) : (s.withInput t x).input t = x :=
  vector_set_eq _ _ _

theorem State.withInput_input_ne (s : State) {t u : Input} (x : InputRec) (h : u ≠ t) : (s.withInput t x).input u = s.input u :=
  vector_set_ne _ _ _ _ h

theorem State.withInput_input (s : State) (t u : Input) (x : InputRec) :
    (s.withInput t x).input u = if u = t then x else s.input u := by
  by_cases h : u = t
  · subst h; simp
  · simp [h, State.withInput_input_ne s x h]

@[simp] theorem State.withLink_link_same (s : State) (t : Link) (x : LinkRec) : (s.withLink t x).link t = x :=
  vector_set_eq _ _ _

theorem State.withLink_link_ne (s : State) {t u : Link} (x : LinkRec) (h : u ≠ t) : (s.withLink t x).link u = s.link u :=
  vector_set_ne _ _ _ _ h

theorem State.withLink_link (s : State) (t u : Link) (x : LinkRec) :
    (s.withLink t x).link u = if u = t then x else s.link u := by
  by_cases h : u = t
  · subst h; simp
  · simp [h, State.withLink_link_ne s x h]

@[simp] theorem State.withStation_station_same (s : State) (t : Link) (x : Settings) : (s.withStation t x).station t = x :=
  vector_set_eq _ _ _

theorem State.withStation_station_ne (s : State) {t u : Link} (x : Settings) (h : u ≠ t) : (s.withStation t x).station u = s.station u :=
  vector_set_ne _ _ _ _ h

theorem State.withStation_station (s : State) (t u : Link) (x : Settings) :
    (s.withStation t x).station u = if u = t then x else s.station u := by
  by_cases h : u = t
  · subst h; simp
  · simp [h, State.withStation_station_ne s x h]

@[simp] theorem State.withInput_pass_same (s : State) (i : Input) (x : InputRec) : (s.withInput i x).pass i = x.pass := by
  rw [State.pass, State.withInput, vector_set_eq]

theorem State.withInput_pass (s : State) (i j : Input) (x : InputRec) :
    (s.withInput i x).pass j = if j = i then x.pass else s.pass j := by
  by_cases h : j = i
  · subst h; simp
  · rw [if_neg h]
    exact congrArg InputRec.pass (vector_set_ne _ _ _ _ h)

@[simp] theorem State.withPass_pass_same (s : State) (i : Input) (x : Option Pass) : (s.withPass i x).pass i = x := by
  simp [State.withPass]

theorem State.withPass_pass (s : State) (i j : Input) (x : Option Pass) :
    (s.withPass i x).pass j = if j = i then x else s.pass j := by
  simp [State.withPass, State.withInput_pass]

theorem State.withPass_input (s : State) (i j : Input) (x : Option Pass) :
    (s.withPass i x).input j = if j = i then { s.input i with pass := x } else s.input j := by
  simp [State.withPass, State.withInput_input]

theorem State.withCounters_link (s : State) (lk m : Link) (c : StationCounters) :
    (s.withCounters lk c).link m = if m = lk then { s.link lk with station := c } else s.link m := by
  simp [State.withCounters, State.withLink_link]

end Sys2Proof.Machine
end

