-- ==== Sys2Proof/Laws/Router.lean ====
section
/-! SUPPORT. What the event router and the placing of replies can do: they touch event queues, the settings that delivery
writes, and reply queues, and nothing else. -/

namespace Sys2Proof.Machine

/-! ## The inner hub -/

theorem State.inner_withLink (s : State) (lk : Link) (x : LinkRec) : (s.withLink lk x).inner = s.inner := rfl

theorem State.inner_withStation (s : State) (lk : Link) (x : Settings) : (s.withStation lk x).inner = s.inner := rfl

theorem State.inner_withCounters (s : State) (lk : Link) (x : StationCounters) : (s.withCounters lk x).inner = s.inner :=
  rfl

/-- Two states with one inner hub have the same timeline, layers, pool, inputs, queue, mix, bounce, controller, supply
watch and take memory. -/
theorem State.inner_fields {s u : State} (h : u.inner = s.inner) :
    u.cyc = s.cyc ∧ u.lys = s.lys ∧ u.pgp = s.pgp ∧ u.pse = s.pse ∧ u.aqu = s.aqu ∧ u.mxe = s.mxe ∧ u.bne = s.bne ∧
      u.tmc = s.tmc ∧ u.smn = s.smn ∧ u.mem = s.mem ∧ u.stopped = s.stopped ∧ u.freeIndex = s.freeIndex ∧
      u.pending = s.pending := by
  simp only [State.inner, State.mk.injEq] at h
  simp [h]

/-! ## onlyEvents -/

theorem onlyEvents.refl (s : State) : onlyEvents s s := ⟨rfl, rfl, rfl, rfl, fun _ => ⟨rfl, rfl⟩⟩

theorem onlyEvents.trans {s u v : State} (h : onlyEvents s u) (k : onlyEvents u v) : onlyEvents s v := by
  obtain ⟨h1, h2, h3, h4, h5⟩ := h
  obtain ⟨k1, k2, k3, k4, k5⟩ := k
  exact ⟨k1.trans h1, k2.trans h2, k3.trans h3, k4.trans h4,
    fun lk => ⟨(k5 lk).1.trans (h5 lk).1, (k5 lk).2.trans (h5 lk).2⟩⟩

/-- A change of one station's settings that delivery may write. -/
theorem onlyEvents_withStation (s : State) (lk : Link) (x : Settings)
    (h : x.besideEvents = (s.station lk).besideEvents) : onlyEvents s (s.withStation lk x) := by
  refine ⟨rfl, rfl, rfl, rfl, fun m => ⟨rfl, ?_⟩⟩
  rw [State.withStation_station]
  split
  · next e => subst e; exact h
  · rfl

/-- A change of one link's event queue. -/
theorem onlyEvents_withLink (s : State) (lk : Link) (x : LinkRec)
    (h : x.besideEvents = (s.link lk).besideEvents) : onlyEvents s (s.withLink lk x) := by
  refine ⟨rfl, rfl, rfl, rfl, fun m => ⟨?_, rfl⟩⟩
  rw [State.withLink_link]
  split
  · next e => subst e; exact h
  · rfl

theorem onlyEvents_joinEvents (lk : Link) (b : EventBody) (info : BlockInfo) (s : State) :
    onlyEvents s (joinEvents lk b info s) :=
  (onlyEvents_withLink _ lk _ (by rfl)).trans (onlyEvents_withStation _ lk _ (by rfl))

theorem onlyEvents_countDropped (lk : Link) (s : State) : onlyEvents s (countDropped lk s) :=
  onlyEvents_withStation s lk _ (by rfl)

theorem onlyEvents_queueEvent (lk : Link) (b : EventBody) (info : BlockInfo) (s : State) :
    onlyEvents s (queueEvent lk b info s) := by
  unfold queueEvent
  split
  · exact onlyEvents_joinEvents ..
  · exact onlyEvents_countDropped ..

theorem onlyEvents_queueUrgent (lk : Link) (b : EventBody) (info : BlockInfo) (s : State) :
    onlyEvents s (queueUrgent lk b info s) := by
  unfold queueUrgent
  split
  · exact onlyEvents_joinEvents ..
  · exact ((onlyEvents_withLink _ lk _ (by rfl)).trans (onlyEvents_countDropped ..)).trans (onlyEvents_joinEvents ..)

theorem onlyEvents_endQuiet (lk : Link) (s : State) : onlyEvents s (endQuiet lk s) := by
  simp only [endQuiet]
  split
  · split
    · exact (onlyEvents_withStation _ lk _ (by rfl)).trans (onlyEvents_queueEvent ..)
    · exact onlyEvents_withStation s lk _ (by rfl)
  · exact onlyEvents.refl s

theorem onlyEvents_deliver (lk : Link) (b : EventBody) (info : BlockInfo) (s : State) :
    onlyEvents s (deliver lk b info s) := by
  unfold deliver
  split
  · exact onlyEvents.refl s
  · split
    · exact (onlyEvents_endQuiet lk s).trans (onlyEvents_queueUrgent ..)
    · split
      · exact onlyEvents.refl s
      · split
        · exact onlyEvents_withStation s lk _ (by rfl)
        · exact onlyEvents_queueEvent ..

theorem onlyEvents_foldl {α : Type} (f : State → α → State) (h : ∀ s x, onlyEvents s (f s x)) :
    ∀ (xs : List α) (s : State), onlyEvents s (xs.foldl f s)
  | [], s => onlyEvents.refl s
  | x :: xs, s => (h s x).trans (onlyEvents_foldl f h xs (f s x))

theorem onlyEvents_emitAt (info : BlockInfo) (b : EventBody) (s : State) : onlyEvents s (emitAt info b s) := by
  refine onlyEvents_foldl _ (fun s lk => ?_) _ _
  split
  · exact onlyEvents.refl s
  · exact onlyEvents_deliver ..

theorem onlyEvents_emit (b : EventBody) (s : State) : onlyEvents s (emit b s) := onlyEvents_emitAt _ b s

theorem onlyEvents_sendMarks (l b p : Nat) (s : State) : onlyEvents s (sendMarks l b p s) := by
  unfold sendMarks
  simp only
  split
  · exact (onlyEvents_emit _ s).trans (onlyEvents_emit ..)
  · exact onlyEvents_emit ..

theorem onlyEvents_sendBlockMarks (s : State) : onlyEvents s (sendBlockMarks s) := by
  unfold sendBlockMarks
  split
  · exact onlyEvents_sendMarks ..
  · exact onlyEvents.refl s

theorem onlyEvents_releaseMarks (s : State) : onlyEvents s (releaseMarks s) := by
  unfold releaseMarks
  split
  · exact onlyEvents_sendBlockMarks s
  · exact onlyEvents.refl s

/-- The marks of a block: delivered, or noted as withheld, or none. -/
theorem emitMarks_cases (s : State) :
    emitMarks s = s ∨ emitMarks s = s.withCyc { s.cyc with withheld := true } ∨
      emitMarks s = sendBlockMarks s := by
  unfold emitMarks
  split
  · split
    · exact .inr (.inl rfl)
    · exact .inr (.inr rfl)
  · exact .inl rfl

/-- Delivery changes no link's state. -/
theorem onlyEvents.linkRuns {s u : State} (h : onlyEvents s u) (lk : Link) : u.linkRuns lk = s.linkRuns lk := by
  have := congrArg LinkRec.state (h.2.2.2.2 lk).1
  simp only [LinkRec.besideEvents] at this
  simp [State.linkRuns, this]

/-- Delivery changes no layer, track, input or pass. -/
theorem onlyEvents.reads {s u : State} (h : onlyEvents s u) :
    (∀ t, u.track t = s.track t) ∧ (∀ id, u.layer id = s.layer id) ∧ (∀ i, u.input i = s.input i) ∧
      ∀ i, u.pass i = s.pass i := by
  obtain ⟨-, h1, -, h2, -⟩ := State.inner_fields h.1
  exact ⟨fun t => by simp [State.track, h1], fun id => by simp [State.layer, h1], fun i => by simp [State.input, h2],
    fun i => by simp [State.pass, h2]⟩

/-! ## Replies -/

theorem pushReply_inner (lk : Link) (r : Reply) (s : State) : (pushReply lk r s).inner = s.inner := by
  unfold pushReply; split <;> rfl

theorem reply_inner (lk : Link) (a b : Byte) (k : Bool) (c : ReplyCode) (p : Payload) (s : State) :
    (reply lk a b k c p s).inner = s.inner := pushReply_inner ..

theorem receptionReply_inner (lk : Link) (a : Byte) (tag : Option Byte) (c : ReplyCode) (s : State) :
    (receptionReply lk a tag c s).inner = s.inner := by
  unfold receptionReply
  split
  · exact pushReply_inner ..
  · rfl

theorem endQuiet_inner (lk : Link) (s : State) : (endQuiet lk s).inner = s.inner := (onlyEvents_endQuiet lk s).1

theorem popRequest_inner (lk : Link) (s : State) : (popRequest lk s).inner = s.inner := rfl

theorem taken_inner (lk : Link) (e : Bool) (s : State) : (taken lk e s).inner = s.inner := by
  unfold taken; split
  · exact endQuiet_inner ..
  · rfl

end Sys2Proof.Machine
end

