-- ==== Sys2Proof/Laws/Pool.lean ====
section
/-! SUPPORT. What each operation of the page pool and the layer store can change: the layer store, the pool, and the event
queues its events reach; nothing else. -/

namespace Sys2Proof.Machine

/-- `u` is `s` but for the layer store, the page pool and what the delivery of events writes. -/
def onlyStore (s u : State) : Prop := onlyEvents { s with lys := u.lys, pgp := u.pgp } u

theorem onlyStore.refl (s : State) : onlyStore s s := onlyEvents.refl s

theorem onlyStore.trans {s u v : State} (h : onlyStore s u) (k : onlyStore u v) : onlyStore s v := by
  obtain ⟨h1, h2, h3, h4, h5⟩ := h
  obtain ⟨k1, k2, k3, k4, k5⟩ := k
  refine ⟨?_, k2.trans h2, k3.trans h3, k4.trans h4,
    fun lk => ⟨(k5 lk).1.trans (h5 lk).1, (k5 lk).2.trans (h5 lk).2⟩⟩
  simp only [State.inner, State.mk.injEq] at *
  simp_all

/-- Events leave the store and the pool as they are. -/
theorem onlyEvents.store {s u : State} (h : onlyEvents s u) : onlyStore s u := by
  have hi := State.inner_fields h.1
  have : ({ s with lys := u.lys, pgp := u.pgp } : State) = s := by rw [hi.2.1, hi.2.2.1]
  rw [onlyStore, this]
  exact h

/-- What a store operation leaves as it is. -/
theorem onlyStore.fields {s u : State} (h : onlyStore s u) :
    u.cyc = s.cyc ∧ u.pse = s.pse ∧ u.aqu = s.aqu ∧ u.mxe = s.mxe ∧ u.bne = s.bne ∧ u.tmc = s.tmc ∧ u.smn = s.smn ∧
      u.mem = s.mem ∧ u.stopped = s.stopped ∧ u.freeIndex = s.freeIndex ∧ u.pending = s.pending ∧
      u.rqu.pointer = s.rqu.pointer := by
  have hi := State.inner_fields h.1
  exact ⟨hi.1, hi.2.2.2.1, hi.2.2.2.2.1, hi.2.2.2.2.2.1, hi.2.2.2.2.2.2.1, hi.2.2.2.2.2.2.2.1, hi.2.2.2.2.2.2.2.2.1,
    hi.2.2.2.2.2.2.2.2.2.1, hi.2.2.2.2.2.2.2.2.2.2.1, hi.2.2.2.2.2.2.2.2.2.2.2.1, hi.2.2.2.2.2.2.2.2.2.2.2.2, h.2.1⟩

theorem onlyStore_foldl {α : Type} (f : State → α → State) (h : ∀ s x, onlyStore s (f s x)) :
    ∀ (xs : List α) (s : State), onlyStore s (xs.foldl f s)
  | [], s => onlyStore.refl s
  | x :: xs, s => (h s x).trans (onlyStore_foldl f h xs (f s x))

/-! ## The updates -/

theorem onlyStore_withTrack (s : State) (t : TrackId) (x : Track) : onlyStore s (s.withTrack t x) := onlyEvents.refl _

theorem onlyStore_withLayer (s : State) (id : LayerId) (x : Option Layer) : onlyStore s (s.withLayer id x) :=
  onlyEvents.refl _

theorem onlyStore_withPgp (s : State) (x : Pgp) : onlyStore s (s.withPgp x) := onlyEvents.refl _

/-! ## Freeing -/

/-- The low-mark test (R65): the flag, the lowest count, and one POOL_LOW where the flag changes. -/
theorem onlyStore_lowMark (s : State) : onlyStore s (lowMark s) := by
  unfold lowMark
  simp only
  split
  · exact onlyStore_withPgp _ _
  · exact (onlyStore_withPgp _ _).trans (onlyEvents_emit _ _).store

/-- The pool after the low-mark test. -/
theorem lowMark_pgp (s : State) :
    (lowMark s).pgp = { s.pgp with low := lowFlagAfter s.pgp.low s.freeCount, lowest := min s.pgp.lowest s.freeCount } := by
  unfold lowMark
  simp only
  split
  · rfl
  · exact (State.inner_fields (onlyEvents_emit _ _).1).2.2.1

/-- The low-mark test leaves the layer store as it is. -/
theorem lowMark_lys (s : State) : (lowMark s).lys = s.lys := by
  unfold lowMark
  simp only
  split
  · rfl
  · exact (State.inner_fields (onlyEvents_emit _ _).1).2.1

theorem onlyStore_givePages (ps : List Page) (s : State) : onlyStore s (givePages ps s) := onlyEvents.refl _

theorem onlyStore_emptyTest (t : TrackId) (s : State) : onlyStore s (emptyTest t s) := by
  unfold emptyTest
  simp only
  split
  · exact onlyStore_withTrack _ _ _
  · exact onlyStore.refl s

/-- The state after the actions 1 to 4 of R30 on a layer that is not FREE. -/
theorem dropLayer_of_some {id : LayerId} {s : State} {l : Layer} (h : s.layer id = some l) :
    dropLayer id s = { s with
      lys.tracks := s.lys.tracks.set l.track
        { s.track l.track with stack := (s.track l.track).stack.filter (· ≠ id),
                               redo := (s.track l.track).redo.filter (· ≠ id) },
      lys.layers := s.lys.layers.set id none,
      pgp.free := s.pgp.free ++ l.map.map (·.2),
      pgp.pinnedTotal := if l.pinned then s.pgp.pinnedTotal - l.map.length else s.pgp.pinnedTotal } := by
  simp only [dropLayer, h]
  rfl

/-- A FREE record is left as it is. -/
theorem dropLayer_of_none {id : LayerId} {s : State} (h : s.layer id = none) : dropLayer id s = s := by
  simp only [dropLayer, h]

theorem onlyStore_dropLayer (id : LayerId) (s : State) : onlyStore s (dropLayer id s) := by
  unfold dropLayer
  split
  · exact onlyStore.refl s
  · exact onlyEvents.refl _

theorem onlyStore_freeLayer (id : LayerId) (s : State) : onlyStore s (freeLayer id s) := by
  unfold freeLayer
  split
  · exact onlyStore.refl s
  · exact (onlyStore_dropLayer id s).trans (onlyStore_emptyTest _ _)

theorem onlyStore_freeLayers (ids : List LayerId) (s : State) : onlyStore s (freeLayers ids s) := by
  unfold freeLayers
  split
  · exact onlyStore.refl s
  · exact (onlyStore_foldl _ (fun s id => onlyStore_freeLayer id s) ids s).trans (onlyStore_lowMark _)

/-! ## Reclaim and claims -/

/-- One reclaim (R57, R59). -/
theorem onlyStore_reclaimOne {need : Need} {s u : State} (h : reclaimOne need s = some u) : onlyStore s u := by
  unfold reclaimOne at h
  split at h
  · cases h
  · split at h
    · cases h
    · simp only [Option.some.injEq] at h
      subst h
      exact ((onlyStore_freeLayer _ s).trans (onlyStore_withPgp _ _)).trans (onlyEvents_emit _ _).store

/-- A reclaim run (R58). -/
theorem onlyStore_reclaimRun (need : Need) (met : State → Bool) :
    ∀ (n : Nat) (s : State), onlyStore s (reclaimRun need met n s)
  | 0, s => onlyStore.refl s
  | n + 1, s => by
    unfold reclaimRun
    split
    · exact onlyStore.refl s
    · split
      · exact onlyStore.refl s
      · next u h => exact (onlyStore_reclaimOne h).trans (onlyStore_reclaimRun need met n u)

theorem onlyStore_moveHead (id : LayerId) (slot : Nat) (s : State) : onlyStore s (moveHead id slot s).1 := by
  unfold moveHead
  split
  · split
    · exact onlyStore.refl s
    · exact onlyEvents.refl _
  · exact onlyStore.refl s

/-- A single-page claim (R54). -/
theorem onlyStore_claimPage (id : LayerId) (slot : Nat) (s : State) : onlyStore s (claimPage id slot s).1 := by
  unfold claimPage
  simp only
  split
  · exact ((onlyStore_reclaimRun _ _ _ s).trans (onlyStore_moveHead _ _ _)).trans (onlyStore_lowMark _)
  · exact onlyStore_withPgp _ _

/-- A refused single-page claim raises the starved count and changes nothing else (R54). -/
theorem claimPage_refused {id : LayerId} {slot : Nat} {s : State} (h : (claimPage id slot s).2 = false) :
    (claimPage id slot s).1 = s.withPgp { s.pgp with starved := sat32 (s.pgp.starved + 1) } := by
  unfold claimPage at h ⊢
  simp only at h ⊢
  split
  · next e => rw [if_pos e] at h; cases h
  · rfl

/-- A group claim (R55). -/
theorem onlyStore_claimGroup (id : LayerId) (slots : List Nat) (s : State) : onlyStore s (claimGroup id slots s).1 := by
  unfold claimGroup
  split
  · exact onlyStore_withPgp _ _
  · exact ((onlyStore_reclaimRun _ _ _ s).trans
      (onlyStore_foldl _ (fun s slot => onlyStore_moveHead id slot s) slots _)).trans (onlyStore_lowMark _)

/-- A refused group claim raises the group refusal count and changes nothing else (R55). -/
theorem claimGroup_refused {id : LayerId} {slots : List Nat} {s : State} (h : (claimGroup id slots s).2 = false) :
    (claimGroup id slots s).1 = s.withPgp { s.pgp with groupRefusals := sat32 (s.pgp.groupRefusals + 1) } := by
  unfold claimGroup at h ⊢
  split
  · rfl
  · next e => rw [if_neg e] at h; cases h

/-! ## Trimming, records and parking -/

theorem onlyStore_trimLayer (id : LayerId) (n : Nat) (s : State) : onlyStore s (trimLayer id n s) := by
  unfold trimLayer
  split
  · exact onlyStore.refl s
  · exact ((onlyStore_withLayer _ _ _).trans (onlyStore_givePages _ _)).trans (onlyStore_lowMark _)

/-- A record found is FREE in the state found with it (R28). -/
theorem findRecord_free {s u : State} {id : LayerId} (h : findRecord s = some (id, u)) :
    onlyStore s u ∧ u.layer id = none := by
  have hfree : ∀ {x : State} {i : LayerId}, x.freeRecord = some i → x.layer i = none := by
    intro x i hx
    have := List.find?_some hx
    simpa using this
  unfold findRecord at h
  split at h
  · next i hi => cases h; exact ⟨onlyStore.refl s, hfree hi⟩
  · simp only [Option.map_eq_some_iff] at h
    obtain ⟨i, hi, he⟩ := h
    cases he
    refine ⟨(onlyStore_reclaimRun _ _ _ s).trans (onlyStore_lowMark _), ?_⟩
    have := hfree hi
    rw [State.layer, lowMark_lys]
    exact this

theorem onlyStore_renumberStamps (s : State) : onlyStore s (renumberStamps s) := by
  unfold renumberStamps
  simp only
  refine (onlyStore_foldl _ (fun x id => ?_) allLayers s).trans (onlyEvents.refl _)
  split
  · exact onlyStore.refl x
  · split
    · exact onlyStore_withLayer _ _ _
    · exact onlyStore.refl x

/-- A layer parked (R31). -/
theorem onlyStore_parkLayer (id : LayerId) (s : State) : onlyStore s (parkLayer id s) := by
  have h : ∀ x : State, onlyStore s x → onlyStore s (match x.layer id with
      | none => x
      | some l =>
        let tr := x.track l.track
        let s1 := x.withTrack l.track { tr with stack := tr.stack.filter (· ≠ id), redo := tr.redo ++ [id] }
        let s2 := s1.withLayer id (some { l with state := .parked, stamp := some s1.lys.parks })
        { s2 with lys.parks := s2.lys.parks + 1 }) := by
    intro x hx
    split
    · exact hx
    · exact hx.trans (onlyEvents.refl _)
  unfold parkLayer
  apply h
  split
  · exact onlyStore_renumberStamps s
  · exact onlyStore.refl s

end Sys2Proof.Machine
end

