-- ==== Sys2Proof/Laws/Passes.lean ====
section
/-! SUPPORT. What each operation of the pass engine can change: the timeline, the layer store, the pool, the inputs, take
memory in its canonical form, and the event queues its events reach; nothing else. -/

namespace Sys2Proof.Machine

/-- `u` is `s` but for the timeline, the layer store, the pool, the inputs, take memory (which keeps its form) and what the
delivery of events writes. -/
def onlyPasses (s u : State) : Prop :=
  onlyEvents { s with cyc := u.cyc, lys := u.lys, pgp := u.pgp, pse := u.pse, mem := u.mem } u ∧
    (Memory.wf s.mem = true → Memory.wf u.mem = true)

theorem onlyPasses.refl (s : State) : onlyPasses s s := ⟨onlyEvents.refl s, id⟩

theorem onlyPasses.trans {s u v : State} (h : onlyPasses s u) (k : onlyPasses u v) : onlyPasses s v := by
  obtain ⟨⟨h1, h2, h3, h4, h5⟩, hm⟩ := h
  obtain ⟨⟨k1, k2, k3, k4, k5⟩, km⟩ := k
  refine ⟨⟨?_, k2.trans h2, k3.trans h3, k4.trans h4,
    fun lk => ⟨(k5 lk).1.trans (h5 lk).1, (k5 lk).2.trans (h5 lk).2⟩⟩, fun x => km (hm x)⟩
  simp only [State.inner, State.mk.injEq] at *
  simp_all

/-- What a pass operation leaves as it is. -/
theorem onlyPasses.fields {s u : State} (h : onlyPasses s u) :
    u.aqu = s.aqu ∧ u.mxe = s.mxe ∧ u.bne = s.bne ∧ u.tmc = s.tmc ∧ u.smn = s.smn ∧ u.stopped = s.stopped ∧
      u.freeIndex = s.freeIndex ∧ u.pending = s.pending ∧ u.rqu.pointer = s.rqu.pointer := by
  have hi := State.inner_fields h.1.1
  exact ⟨hi.2.2.2.2.1, hi.2.2.2.2.2.1, hi.2.2.2.2.2.2.1, hi.2.2.2.2.2.2.2.1, hi.2.2.2.2.2.2.2.2.1,
    hi.2.2.2.2.2.2.2.2.2.2.1, hi.2.2.2.2.2.2.2.2.2.2.2.1, hi.2.2.2.2.2.2.2.2.2.2.2.2, h.1.2.1⟩

/-- A store operation is a pass operation. -/
theorem onlyStore.passes {s u : State} (h : onlyStore s u) : onlyPasses s u := by
  have hf := h.fields
  refine ⟨?_, fun hm => by rw [hf.2.2.2.2.2.2.2.1]; exact hm⟩
  have : ({ s with cyc := u.cyc, lys := u.lys, pgp := u.pgp, pse := u.pse, mem := u.mem } : State) =
      { s with lys := u.lys, pgp := u.pgp } := by
    rw [hf.1, hf.2.1, hf.2.2.2.2.2.2.2.1]
  rw [this]
  exact h

theorem onlyEvents.passes {s u : State} (h : onlyEvents s u) : onlyPasses s u := h.store.passes

theorem onlyPasses_foldl {α : Type} (f : State → α → State) (h : ∀ s x, onlyPasses s (f s x)) :
    ∀ (xs : List α) (s : State), onlyPasses s (xs.foldl f s)
  | [], s => onlyPasses.refl s
  | x :: xs, s => (h s x).trans (onlyPasses_foldl f h xs (f s x))

theorem onlyPasses_ite {c : Prop} [Decidable c] {s u v : State} (h : onlyPasses s u) (k : onlyPasses s v) :
    onlyPasses s (if c then u else v) := by
  split
  · exact h
  · exact k

/-! ## The updates -/

theorem onlyPasses_withCyc (s : State) (c : Cyc) : onlyPasses s (s.withCyc c) := ⟨onlyEvents.refl _, id⟩

theorem onlyPasses_withInput (s : State) (i : Input) (x : InputRec) : onlyPasses s (s.withInput i x) :=
  ⟨onlyEvents.refl _, id⟩

theorem onlyPasses_withPass (s : State) (i : Input) (p : Option Pass) : onlyPasses s (s.withPass i p) :=
  onlyPasses_withInput s i _

theorem onlyPasses_withTrack (s : State) (t : TrackId) (x : Track) : onlyPasses s (s.withTrack t x) :=
  (onlyStore_withTrack s t x).passes

theorem onlyPasses_emit (b : EventBody) (s : State) : onlyPasses s (emit b s) := (onlyEvents_emit b s).passes

theorem onlyPasses_emitAt (info : BlockInfo) (b : EventBody) (s : State) : onlyPasses s (emitAt info b s) :=
  (onlyEvents_emitAt info b s).passes

theorem onlyPasses_emitMarks (s : State) : onlyPasses s (emitMarks s) := by
  obtain h | h | h := emitMarks_cases s <;> rw [h]
  · exact onlyPasses.refl s
  · exact onlyPasses_withCyc s _
  · exact (onlyEvents_sendBlockMarks s).passes

theorem onlyStore_mapLayer (id : LayerId) (f : Layer → Layer) (s : State) : onlyStore s (mapLayer id f s) := by
  unfold mapLayer
  split
  · exact onlyStore.refl s
  · exact onlyStore_withLayer _ _ _

theorem onlyPasses_mapPass (i : Input) (f : Pass → Pass) (s : State) : onlyPasses s (mapPass i f s) := by
  unfold mapPass
  split
  · exact onlyPasses.refl s
  · exact onlyPasses_withPass _ _ _

/-! ## Stored blocks -/

/-- A block stored: take memory alone, or nothing. -/
theorem storeBlock_mem (id : LayerId) (pos : Nat) (b : Block) (s : State) :
    storeBlock id pos b s = s.withMem (storeBlock id pos b s).mem ∧
      (Memory.wf s.mem = true → Memory.wf (storeBlock id pos b s).mem = true) := by
  unfold storeBlock
  split
  · exact ⟨rfl, fun h => writeBlock_wf h⟩
  · exact ⟨rfl, fun h => h⟩

theorem onlyPasses_storeBlock (id : LayerId) (pos : Nat) (b : Block) (s : State) :
    onlyPasses s (storeBlock id pos b s) := by
  have h := storeBlock_mem id pos b s
  exact ⟨by rw [h.1]; exact onlyEvents.refl _, h.2⟩

theorem onlyPasses_rampEnds (id : LayerId) (s : State) : onlyPasses s (rampEnds id s) := by
  unfold rampEnds
  split
  · exact onlyPasses.refl s
  · split
    · exact onlyPasses_storeBlock _ _ _ _
    · exact (onlyPasses_storeBlock _ _ _ s).trans (onlyPasses_storeBlock _ _ _ _)

/-! ## Ends, cuts and aborts -/

theorem onlyPasses_clearPass (late : Bool) (i : Input) (s : State) : onlyPasses s (clearPass late i s) :=
  onlyPasses_withInput _ _ _

theorem onlyStore_settleTrack (t : TrackId) (s : State) : onlyStore s (settleTrack t s) := by
  unfold settleTrack
  simp only
  split
  · exact onlyStore_withTrack _ _ _
  · exact onlyStore.refl s

theorem onlyPasses_stopMeasuring (kind : PassKind) (s : State) : onlyPasses s (stopMeasuring kind s) := by
  unfold stopMeasuring
  split
  · exact onlyPasses_withCyc _ _
  · exact onlyPasses.refl s

/-- The end of a pass that leaves nothing: its record ENDED, its layer freed, its track and the timeline settled. -/
theorem onlyPasses_dropPass (late : Bool) (i : Input) (p : Pass) (s : State) :
    onlyPasses s (stopMeasuring p.kind (settleTrack p.track (dropLayer p.layer (clearPass late i s)))) :=
  ((onlyPasses_clearPass late i s).trans ((onlyStore_dropLayer _ _).trans (onlyStore_settleTrack _ _)).passes).trans
    (onlyPasses_stopMeasuring _ _)

theorem onlyPasses_finishCut (cause : CutCause) (i : Input) (s : State) : onlyPasses s (finishCut cause i s) := by
  unfold finishCut
  split
  · exact onlyPasses.refl s
  · next p _ =>
    simp only
    split
    · exact (onlyPasses_dropPass false i p s).trans ((onlyStore_lowMark _).passes.trans (onlyPasses_emitAt _ _ _))
    · exact (((onlyPasses_clearPass false i s).trans (onlyPasses_rampEnds _ _)).trans
        (onlyStore_mapLayer _ _ _).passes).trans (onlyPasses_emitAt _ _ _)

theorem onlyStore_fixLength (p : Pass) (k len : Nat) (s : State) : onlyStore s (fixLength p k len s) :=
  (onlyStore_withTrack _ _ _).trans (onlyStore_mapLayer _ _ _)

theorem onlyStore_trimTo (id : LayerId) (n : Nat) (s : State) : onlyStore s (trimTo id n s) := by
  unfold trimTo
  split
  · split
    · exact onlyStore_trimLayer _ _ _
    · exact onlyStore.refl s
  · exact onlyStore.refl s

theorem onlyPasses_fixAtCut (marks : Bool) (p : Pass) (s : State) : onlyPasses s (fixAtCut marks p s) := by
  unfold fixAtCut
  split
  · exact onlyPasses.refl s
  · split
    · refine (onlyPasses_withCyc s s.cyc.placeMeasured).trans (onlyPasses.trans ?_
        ((onlyStore_fixLength _ _ _ _).trans (onlyStore_trimTo _ _ _)).passes)
      split
      · exact onlyPasses_emitMarks _
      · exact onlyPasses.refl _
    · exact onlyPasses.refl s
  · split
    · split
      · exact (onlyStore_fixLength _ _ _ _).passes
      · exact onlyPasses.refl s
    · exact onlyPasses.refl s

/-- A cut (R89). -/
theorem onlyPasses_cutPass (cause : CutCause) (marks : Bool) (i : Input) (s : State) :
    onlyPasses s (cutPass cause marks i s) := by
  unfold cutPass
  split
  · exact onlyPasses.refl s
  · split
    · exact onlyPasses.refl s
    · simp only
      split
      · exact (onlyPasses_fixAtCut _ _ _).trans (onlyPasses_withPass _ _ _)
      · exact (onlyPasses_fixAtCut _ _ _).trans (onlyPasses_finishCut _ _ _)

theorem onlyPasses_cutAll (cause : CutCause) (marks : Bool) (s : State) : onlyPasses s (cutAll cause marks s) :=
  onlyPasses_foldl _ (fun s i => onlyPasses_cutPass cause marks i s) allInputs s

/-- An abort (R91). -/
theorem onlyPasses_abortPass (mark event : Bool) (i : Input) (s : State) : onlyPasses s (abortPass mark event i s) := by
  unfold abortPass
  split
  · exact onlyPasses.refl s
  · next p _ =>
    have h1 := onlyPasses_dropPass false i p s
    have h2 := onlyPasses_ite (c := mark = true) (h1.trans (onlyStore_lowMark _).passes) h1
    exact onlyPasses_ite (h2.trans (onlyPasses_emit _ _)) h2

theorem onlyPasses_abortTrack (t : TrackId) : ∀ (n : Nat) (s : State), onlyPasses s (abortTrack t n s)
  | 0, s => onlyPasses.refl s
  | n + 1, s => by
    unfold abortTrack
    split
    · exact onlyPasses.refl s
    · exact (onlyPasses_abortPass _ _ _ s).trans (onlyPasses_abortTrack t n _)

/-! ## Starts -/

theorem onlyStore_settlePages (id : LayerId) (here d len : Nat) (s : State) :
    onlyStore s (settlePages id here d len s).1 := by
  have h : onlyStore s (if 1 ≤ d then claimGroup id (touchedSlots ((here + len - d) % len) d len) s else (s, false)).1 := by
    split
    · exact onlyStore_claimGroup _ _ _
    · exact onlyStore.refl s
  unfold settlePages
  extract_lets r r1
  split
  · exact h
  · exact h.trans (onlyStore_claimPage _ _ _)

theorem onlyStore_freeRedo (t : TrackId) (s : State) : onlyStore s (freeRedo t s) := by
  unfold freeRedo
  simp only
  split
  · exact onlyStore.refl s
  · exact (onlyStore_foldl _ (fun s id => onlyStore_dropLayer id s) _ s).trans (onlyStore_lowMark _)

theorem onlyPasses_enterPass (i : Input) (t : TrackId) (kind : PassKind) (id : LayerId) (here start d : Nat) (s : State) :
    onlyPasses s (enterPass i t kind id here start d s) := by
  have h : ∀ x : State, onlyPasses s x → ∀ p : Option Pass, ∀ n : Nat,
      onlyPasses s { (x.withPass i p) with pse.openings := n } :=
    fun x hx p n => hx.trans ⟨onlyEvents.refl _, fun k => k⟩
  unfold enterPass
  extract_lets tr first s1 s2 s3
  exact h s2 (onlyPasses_ite ((onlyPasses_withTrack s t _).trans (onlyPasses_withCyc _ _)) (onlyPasses_withTrack s t _)) _ _

theorem onlyStore_advanceSerial (s : State) : onlyStore s (advanceSerial s) := onlyEvents.refl _

theorem onlyPasses_enterOver (i : Input) (t : TrackId) (kind : PassKind) (id : LayerId) (here start d : Nat)
    (f : Layer → Layer) (s : State) : onlyPasses s (enterPass i t kind id here start d (mapLayer id f s)) :=
  (onlyStore_mapLayer id f s).passes.trans (onlyPasses_enterPass _ _ _ _ _ _ _ _)

/-- A pass start, refused or not (R78). -/
theorem onlyPasses_startPass (i : Input) (t : TrackId) (d : Nat) (s : State) : onlyPasses s (startPass i t d s).1 := by
  unfold startPass
  extract_lets kind length here
  split
  · exact ((onlyStore_freeRedo t s).trans (onlyStore_settleTrack _ _)).passes
  · next id s1 h =>
    have h1 : onlyStore s s1 := (onlyStore_freeRedo t s).trans (findRecord_free h).1
    extract_lets serial s2
    have h2 : onlyStore s s2 := h1.trans ((onlyStore_advanceSerial s1).trans (onlyStore_withLayer _ _ _))
    have h3 := h2.trans (onlyStore_settlePages id here d (length.getD 240000) s2)
    split
    · next s3 e =>
      rw [e] at h3
      exact (h3.trans ((onlyStore_dropLayer _ _).trans (onlyStore_settleTrack _ _))).passes
    · next s3 n e =>
      rw [e] at h3
      extract_lets start s4
      have h6 : onlyPasses s s4 := h3.passes.trans (onlyPasses_enterOver i t kind id here start n _ s3)
      clear_value s4
      dsimp only
      exact h6.trans (onlyPasses_emit _ s4)

/-- A PASS_OPEN that executes (R77, R78). -/
theorem onlyPasses_execOpen (i : Input) (t : TrackId) (d : Nat) (s : State) : onlyPasses s (execOpen i t d s).1 := by
  unfold execOpen
  split
  · exact onlyPasses.refl s
  · split
    · exact onlyPasses.refl s
    · exact onlyPasses_startPass _ _ _ _

/-! ## Writing -/

theorem onlyPasses_backfillCopy (i : Input) (s : State) : onlyPasses s (backfillCopy i s) := by
  unfold backfillCopy
  split
  · exact onlyPasses.refl s
  · exact (onlyPasses_foldl _ (fun s _ => onlyPasses_storeBlock _ _ _ s) _ s).trans (onlyPasses_mapPass _ _ _)

theorem onlyStore_claimSlot (id : LayerId) (slot : Nat) (s : State) : onlyStore s (claimSlot id slot s).1 := by
  unfold claimSlot
  split
  · exact onlyStore.refl s
  · exact onlyStore_claimPage _ _ _

/-- The live write of one block period (R81). -/
theorem onlyPasses_liveWrite (i : Input) (b : Block) (s : State) : onlyPasses s (liveWrite i b s) := by
  unfold liveWrite
  split
  · exact onlyPasses.refl s
  · split
    · split
      · next s1 h =>
        have := onlyStore_claimSlot ‹Pass›.layer (‹Pass›.writePos / 256) s
        rw [h] at this
        exact this.passes.trans (onlyPasses_cutPass _ _ _ _)
      · next s1 h =>
        have := onlyStore_claimSlot ‹Pass›.layer (‹Pass›.writePos / 256) s
        rw [h] at this
        exact ((this.passes.trans (onlyPasses_storeBlock _ _ _ _)).trans (onlyStore_mapLayer _ _ _).passes).trans
          (onlyPasses_mapPass _ _ _)
    · exact onlyPasses.refl s

/-! ## Closes -/

theorem onlyPasses_completePass (late : Bool) (spill : Block) (i : Input) (s : State) :
    onlyPasses s (completePass late spill i s) := by
  unfold completePass
  split
  · exact onlyPasses.refl s
  · exact (((onlyPasses_storeBlock _ _ _ s).trans (onlyStore_mapLayer _ _ _).passes).trans
      (onlyPasses_clearPass _ _ _)).trans (onlyPasses_emitAt _ _ _)

theorem onlyPasses_awaitSpill (i : Input) (e : Nat) (s : State) : onlyPasses s (awaitSpill i e s) :=
  onlyPasses_mapPass _ _ _

/-- The close of a MEASURE pass (R12). -/
theorem onlyPasses_closeMeasure (i : Input) (p : Pass) (s : State) : onlyPasses s (closeMeasure i p s) := by
  have h : onlyPasses s (fixLength p 1 ((emitMarks (s.withCyc s.cyc.placeMeasured)).cyc.len.getD 0)
      (emitMarks (s.withCyc s.cyc.placeMeasured))) :=
    ((onlyPasses_withCyc s _).trans (onlyPasses_emitMarks _)).trans (onlyStore_fixLength _ _ _ _).passes
  unfold closeMeasure
  simp only
  split
  · exact ((h.trans (onlyStore_trimTo _ _ _).passes).trans (onlyPasses_mapPass _ _ _)).trans
      (onlyPasses_completePass _ _ _ _)
  · split
    · exact h.trans (onlyPasses_awaitSpill _ _ _)
    · exact h.trans (onlyPasses_mapPass _ _ _)

theorem onlyPasses_closeAtBoundary (i : Input) (p : Pass) (k len : Nat) (s : State) :
    onlyPasses s (closeAtBoundary i p k len s) :=
  (onlyStore_fixLength _ _ _ _).passes.trans (onlyPasses_awaitSpill _ _ _)

/-- The close of an OPEN pass (R85, R86). -/
theorem onlyPasses_closeOpening (i : Input) (p : Pass) (d : Nat) (s : State) : onlyPasses s (closeOpening i p d s) := by
  unfold closeOpening
  simp only
  split
  · exact onlyPasses_mapPass _ _ _
  · split
    · exact onlyPasses_closeAtBoundary _ _ _ _ _
    · exact (((onlyStore_fixLength _ _ _ _).trans (onlyStore_trimTo _ _ _)).passes.trans (onlyPasses_mapPass _ _ _)).trans
        (onlyPasses_completePass _ _ _ _)

/-- A PASS_CLOSE (R82). -/
theorem onlyPasses_execClose (i : Input) (d : Nat) (s : State) : onlyPasses s (execClose i d s).1 := by
  unfold execClose
  split
  · exact onlyPasses.refl s
  · split
    · exact onlyPasses.refl s
    · split
      · split
        · exact onlyPasses_closeMeasure _ _ _
        · exact onlyPasses.refl s
      · exact onlyPasses_closeOpening _ _ _ _
      · exact onlyPasses_cutPass _ _ _ _

/-! ## The steps of a pass that come about by themselves -/

theorem onlyPasses_reachEnd (i : Input) (s : State) : onlyPasses s (reachEnd i s) :=
  onlyPasses_ite (onlyPasses_mapPass _ _ _) (onlyPasses.refl s)

theorem onlyPasses_blendSpill (i : Input) (s : State) : onlyPasses s (blendSpill i s) := by
  unfold blendSpill
  split
  · exact onlyPasses_ite (onlyPasses_completePass _ _ _ _) (onlyPasses.refl s)
  · exact onlyPasses.refl s

theorem onlyPasses_endCutBackfill (i : Input) (s : State) : onlyPasses s (endCutBackfill i s) := by
  unfold endCutBackfill
  split
  · split
    · exact onlyPasses_ite (onlyPasses_finishCut _ _ _) (onlyPasses.refl s)
    · exact onlyPasses.refl s
  · exact onlyPasses.refl s

/-- The end of a cut pass's backfill, in the period in which it is reached (R89). -/
theorem onlyPasses_finishCutBackfill (i : Input) (s : State) : onlyPasses s (finishCutBackfill i s) :=
  onlyPasses_ite ((onlyPasses_backfillCopy i s).trans (onlyPasses_endCutBackfill i _)) (onlyPasses.refl s)

theorem onlyPasses_autoClose (s : State) : onlyPasses s (autoClose s) := by
  refine onlyPasses_foldl _ (fun s i => ?_) allInputs s
  split
  · exact onlyPasses_ite (onlyPasses_closeMeasure _ _ _) (onlyPasses.refl s)
  · exact onlyPasses.refl s

theorem onlyPasses_eighthBoundary (i : Input) (s : State) : onlyPasses s (eighthBoundary i s) := by
  unfold eighthBoundary
  split
  · exact onlyPasses_ite (onlyPasses_closeAtBoundary _ _ _ _ _) (onlyPasses.refl s)
  · exact onlyPasses.refl s

theorem onlyPasses_carriedClose (i : Input) (s : State) : onlyPasses s (carriedClose i s) := by
  unfold carriedClose
  split
  · exact onlyPasses_ite (onlyPasses_closeAtBoundary _ _ _ _ _) (onlyPasses.refl s)
  · exact onlyPasses.refl s

end Sys2Proof.Machine
end

