-- ==== Sys2Proof/Laws/Settle.lean ====
section
/-! SUPPORT. Where nothing is due, settling changes nothing; and what serving a request then is. -/

namespace Sys2Proof.Machine

theorem foldl_fixed {α β : Type} (f : β → α → β) (s : β) :
    ∀ xs : List α, (∀ x ∈ xs, f s x = s) → xs.foldl f s = s
  | [], _ => rfl
  | x :: xs, h => by
    rw [List.foldl_cons, h x (by simp)]
    exact foldl_fixed f s xs fun y hy => h y (by simp [hy])

/-! ## The end of a period -/

theorem reachEnd_of_not {i : Input} {s : State} (h : s.endReached i = false) : reachEnd i s = s := by
  simp [reachEnd, h]

theorem blendSpill_of_not {i : Input} {s : State} {p : Pass} (hp : s.pass i = some p)
    (h : (p.state = .spillWait && p.spillReady) = false) : blendSpill i s = s := by
  simp only [blendSpill, hp]
  rw [if_neg]
  simpa using h

/-- Where nothing is due at the end of the last period, settling it changes nothing. -/
theorem settleEnd_of_endSettled {s : State} (h : s.endSettled = true) : settleEnd s = s := by
  apply foldl_fixed
  intro i hi
  have hi := List.all_eq_true.1 h i hi
  cases hp : s.pass i with
  | none => simp [reachEnd, State.endReached, blendSpill, hp]
  | some p =>
    simp only [hp, Bool.and_eq_true, Bool.not_eq_true'] at hi
    rw [reachEnd_of_not hi.1, blendSpill_of_not hp hi.2]

theorem State.settled_parts {s : State} (h : s.settled = true) :
    (∀ i ∈ allInputs, s.inputSettled i = true) ∧ s.wakeDue = false ∧ s.startDue = false ∧ s.entryDue = false ∧
      s.advanceDue = false ∧ ((s.tmc.mem = .draining : Bool) && s.strokeDue) = false ∧ s.drainDue = false := by
  simp only [State.settled, Bool.and_eq_true, Bool.not_eq_true', List.all_eq_true] at h
  exact ⟨h.1.1.1.1.1.1, h.1.1.1.1.1.2, h.1.1.1.1.2, h.1.1.1.2, h.1.1.2, h.1.2, h.2⟩

/-- A settled hub has nothing due at the end of the last period. -/
theorem State.endSettled_of_settled {s : State} (h : s.settled = true) : s.endSettled = true := by
  refine List.all_eq_true.2 fun i hi => ?_
  have hi := (State.settled_parts h).1 i hi
  unfold State.inputSettled at hi
  cases hp : s.pass i with
  | none => rfl
  | some p =>
    simp only [hp, Bool.and_eq_true] at hi ⊢
    exact ⟨hi.1.1.1.1, hi.1.1.1.2⟩

/-! ## The start of a block -/

theorem autoClose_of_settled {s : State} (h : s.settled = true) : autoClose s = s := by
  apply foldl_fixed
  intro i hi
  have hi := (State.settled_parts h).1 i hi
  unfold State.inputSettled at hi
  cases hp : s.pass i with
  | none => rfl
  | some p =>
    simp only [hp, Bool.and_eq_true, Bool.not_eq_true'] at hi
    simp [hi.1.1.2]

theorem settlePasses_of_settled {s : State} (h : s.settled = true) : settlePasses s = s := by
  apply foldl_fixed
  intro i hi
  have hi := (State.settled_parts h).1 i hi
  unfold State.inputSettled at hi
  cases hp : s.pass i with
  | none => simp [eighthBoundary, carriedClose, hp]
  | some p =>
    simp only [hp, Bool.and_eq_true, Bool.not_eq_true'] at hi
    have h1 : eighthBoundary i s = s := by
      simp only [eighthBoundary, hp]
      rw [if_neg]; simpa using hi.1.2
    rw [h1]
    simp only [carriedClose, hp]
    rw [if_neg]; simpa using hi.2

theorem dueEntries_of_not {s : State} (h : s.entryDue = false) : ∀ n, dueEntries n s = s
  | 0 => rfl
  | n + 1 => by simp [dueEntries, h]

theorem strokes_of_not {s : State} (h : s.strokeDue = false) : ∀ n, strokes n s = s
  | 0 => rfl
  | n + 1 => by simp [strokes, h]

/-- Where nothing is due, settling the start of a block changes nothing. -/
theorem settleStart_of_settled {s : State} (h : s.settled = true) : settleStart s = s := by
  obtain ⟨-, hw, hs, he, ha, hk, hd⟩ := State.settled_parts h
  have h1 : settlePasses (scheduledStart (autoClose (wake (settleEnd s)))) = s := by
    rw [settleEnd_of_endSettled (State.endSettled_of_settled h), wake, hw]
    simp only [Bool.false_eq_true, if_false]
    rw [autoClose_of_settled h, scheduledStart, hs]
    simp only [Bool.false_eq_true, if_false]
    exact settlePasses_of_settled h
  have h2 : (if s.tmc.mem = .draining then strokes 4 s else s) = s := by
    split
    · next hm =>
      have : s.strokeDue = false := by simpa [hm] using hk
      exact strokes_of_not this 4
    · rfl
  simp only [settleStart, h1, dueEntries_of_not he]
  simp only [advanceQueue, ha, Bool.false_eq_true, if_false, h2, drain, hd]

/-! ## Serving -/

theorem State.ready_parts {s : State} {lk : Link} {c : Instr} (h : s.ready lk c = true) :
    s.stopped = false ∧ s.settled = true ∧ s.takes lk c = true := by
  simp only [State.ready, Bool.and_eq_true, Bool.not_eq_true'] at h
  exact ⟨h.1.1, h.1.2, h.2⟩

/-- A request that the unit takes, with nothing else due, has its owner's effect and is answered. -/
theorem serve_of_ready {s : State} {lk : Link} {c : Instr} (h : s.ready lk c = true) (code : Byte) (tag : Option Byte)
    (ends : Bool) (owner : State → Answer) :
    serve lk c code tag ends owner s = firstReply lk code tag (owner (taken lk ends s)) := by
  obtain ⟨h1, h2, h3⟩ := State.ready_parts h
  simp [serve, h1, settleStart_of_settled h2, h3]

/-- The link of a request that is taken is in RUN. -/
theorem State.ready_linkRuns {s : State} {lk : Link} {c : Instr} (h : s.ready lk c = true) : s.linkRuns lk = true := by
  obtain ⟨-, -, h3⟩ := State.ready_parts h
  simp only [State.takes, Bool.and_eq_true, State.selected] at h3
  have := List.find?_some (of_decide_eq_true h3.1)
  simp only [State.eligible, Bool.and_eq_true] at this
  exact this.1.1

/-! ## A request as its owner meets it -/

theorem popRequest_link (lk j : Link) (s : State) :
    (popRequest lk s).link j = if j = lk then { s.link lk with requests := (s.link lk).requests.tail } else s.link j := by
  exact State.withLink_link s lk j _

theorem popRequest_station (lk j : Link) (s : State) : (popRequest lk s).station j = s.station j := rfl

/-- The taking of a request leaves the inner hub alone: every field its owner reads is as it was. -/
theorem taken_fields (lk : Link) (e : Bool) (s : State) :
    (taken lk e s).cyc = s.cyc ∧ (taken lk e s).lys = s.lys ∧ (taken lk e s).pgp = s.pgp ∧ (taken lk e s).pse = s.pse ∧
      (taken lk e s).aqu = s.aqu ∧ (taken lk e s).mxe = s.mxe ∧ (taken lk e s).bne = s.bne ∧
      (taken lk e s).tmc = s.tmc ∧ (taken lk e s).smn = s.smn ∧ (taken lk e s).mem = s.mem ∧
      (taken lk e s).stopped = s.stopped ∧ (taken lk e s).freeIndex = s.freeIndex ∧
      (taken lk e s).pending = s.pending :=
  State.inner_fields (taken_inner lk e s)

theorem taken_reads (lk : Link) (e : Bool) (s : State) :
    (∀ t, (taken lk e s).track t = s.track t) ∧ (∀ id, (taken lk e s).layer id = s.layer id) ∧
      (∀ i, (taken lk e s).input i = s.input i) ∧ ∀ i, (taken lk e s).pass i = s.pass i := by
  obtain ⟨-, h1, -, h2, -⟩ := taken_fields lk e s
  exact ⟨fun t => by simp [State.track, h1], fun id => by simp [State.layer, h1], fun i => by simp [State.input, h2],
    fun i => by simp [State.pass, h2]⟩

theorem taken_inHold (lk : Link) (e : Bool) (s : State) : (taken lk e s).inHold = s.inHold := by
  simp [State.inHold, (taken_fields lk e s).2.2.2.2.2.2.2.1]

end Sys2Proof.Machine
end

