-- ==== Sys2Proof/Tests/Slice0.lean ====
section
/-! SUPPORT. Tests: ill-formed commands refused, packets written out from R192 and R193, the worked examples of the
manual, and for every statement that has hypotheses a hub that meets them. -/

namespace Sys2Proof.Tests

open Sys2Proof.Machine

set_option Elab.async false

/-! ## Helpers -/

/-- A hub after power-on reset with its four links in RUN. -/
def hub : State :=
  { State.reset with slk := ⟨Vector.replicate 4 { LinkRec.reset with state := .run }, [], 0⟩ }

/-- The hub's pool cut down to twelve free pages, 100 to 111, with the low mark on. -/
def smallPool : Pgp :=
  { Pgp.reset with free := [100, 101, 102, 103, 104, 105, 106, 107, 108, 109, 110, 111], low := true, lowest := 12 }

/-- The packet of a request waits alone in the request queue of its link. -/
def asked (c : Instr) (s : State) : State :=
  match requestLink c, requestBody c with
  | some lk, some body => s.withLink lk { s.link lk with requests := [⟨body, requestOverlong c⟩] }
  | _, _ => s

/-- The state after a command. -/
def after (c : Instr) (s : State) : State :=
  match exec c s with
  | .next t => t
  | _ => s

/-- The state after a request that waits alone. -/
def served (c : Instr) (s : State) : State := after c (asked c s)

/-- A hub in which a request waits alone: the unit takes it next, nothing else is due, and the hub meets `p`. -/
abbrev meets (lk : Link) (c : Instr) (s : State) (p : State → Prop) : Prop :=
  (asked c s).ready lk c = true ∧ p (asked c s)

/-- The code of the newest reply that waits for a station. -/
def answerOf (lk : Link) (s : State) : Option ReplyCode := (s.link lk).replies.getLast?.map (·.code)

/-- A timeline in RUNNING. -/
def playing (len beats pos count block : Nat) : Cyc :=
  { Cyc.reset with state := .running, len := some len, beats := some beats, setting := beats, pos := some pos,
                   count := count, block := block }

/-- A timeline in PAUSED. -/
def paused (len beats block : Nat) : Cyc := { playing len beats 0 0 block with state := .paused }

/-- A LIVE layer of track `t` that holds `len` blocks. -/
def liveLayer (t : TrackId) (len serial : Nat) (map : List (Nat × Page)) : Layer :=
  { state := .live, track := t, input := some 0, length := some len, start := 0, written := len, map := map,
    level := 256, pinned := false, serial := serial, stamp := none }

/-- A pass that writes. -/
def writing (t : TrackId) (kind : PassKind) (id : LayerId) : Pass :=
  { state := .writing, track := t, kind := kind, layer := id, start := 0, snap := 0, close := none, writePos := 0,
    backfill := 0, cut := none, order := 0, spillReady := false }

/-- A hub RUNNING with a cycle of 250 blocks and 2 beats, whose track T0 loops over the layers L0 to L2, one page each. -/
def band : State :=
  ((((({ hub with cyc := playing 250 2 7 3 1000, pgp := smallPool } : State).withTrack 0
    { Track.reset with state := .looping, mult := some 1, anchor := some 0, stack := [0, 1, 2] }).withLayer 0
    (some (liveLayer 0 250 0 [(0, 10)]))).withLayer 1 (some (liveLayer 0 250 1 [(0, 11)]))).withLayer 2
    (some (liveLayer 0 250 2 [(0, 12)])))

/-- A SCAN of the layers L0 and L1 of T0, whose stroke 0 costs 64 transfers. -/
def scan : Bounce :=
  { track := 0, count := 2, mode := .scan, station := 1, tag := 0x44, owed := true, sources := [⟨0, 0, 256⟩, ⟨1, 1, 256⟩],
    dest := none, total := 8, done := 0, stroke := some (0, 64), peak := 0, clips := 0, suspendPending := false }

/-- The band with that scan at work and a credit. -/
def scanning (credit : Nat) : State :=
  (band.withBne { Bne.reset with engine := .scanning, active := some scan, buffer := [] }).withTmc
    { Tmc.reset with credit := credit }

/-! ## Ill-formed commands -/

/-- A packet that R184 accepts is no refused request. -/
theorem test_illFormed_unknownRequest : (Instr.unknownRequest 0 [0x02, 0x07, 0x04] false).wellFormed = false := by decide

/-- A request packet never holds more than 262 bytes from the request code on (R175). -/
theorem test_illFormed_unknownRequest_long :
    (Instr.unknownRequest 0 (List.replicate 263 0x30) false).wellFormed = false := by decide +kernel

theorem test_illFormed_blockBoundary : (Instr.blockBoundary [1, 3, 1]).wellFormed = false := by decide

theorem test_illFormed_linkError : (Instr.linkError 0 .parity 2000).wellFormed = false := by decide

theorem test_illFormed_linkSilence : (Instr.linkSilence 0 2000).wellFormed = false := by decide

theorem test_illFormed_recoverEnd : (Instr.recoverEnd 0 2000).wellFormed = false := by decide

/-- A packet of type REQUEST is no unknown packet. -/
theorem test_illFormed_unknownPacket : (Instr.unknownPacket 0 [0x01, 0x02, 0x03]).wellFormed = false := by decide

/-- An input block of the length that R193 gives is no unknown packet. -/
theorem test_illFormed_unknownPacket_block :
    (Instr.unknownPacket 0 (0x02 :: List.replicate 145 0)).wellFormed = false := by decide +kernel

theorem test_illFormed_inputBlock : (Instr.inputBlock 0 0 (List.replicate 143 0)).wellFormed = false := by
  decide +kernel

/-- A packet to the hub itself, or to all stations, is no forward to one. -/
theorem test_illFormed_forwardRoute :
    (Instr.forwardRoute 0 0x00).wellFormed = false ∧ (Instr.forwardRoute 0 0xFF).wellFormed = false := by decide

/-! ## Packets written out from the catalogue (R192) and the fields (R193) -/

/-- CYCLE_SET of 2 000 blocks (0x07D0) and 4 beats. -/
theorem test_decode_cycleSet :
    decodeRequest 1 [0x01, 0x55, 0xD0, 0x07, 0x04] false = .cycleSet 1 0x55 2000 4 := by decide

theorem test_decode_passOpen :
    decodeRequest 2 [0x06, 0x01, 0x02, 0x05, 0x03] false = .passOpen 2 0x01 0x02 0x05 0x03 := by decide

theorem test_decode_trackMute :
    decodeRequest 0 [0x0A, 0x09, 0x03, 0x01, 0x01] false = .trackMute 0 0x09 0x03 0x01 0x01 := by decide

/-- LAYER_LEVEL of layer 47 at 200 (0x00C8). -/
theorem test_decode_layerLevel :
    decodeRequest 3 [0x0F, 0x00, 0x2F, 0xC8, 0x00] false = .layerLevel 3 0x00 0x2F 200 := by decide

theorem test_decode_bounce :
    decodeRequest 1 [0x11, 0x02, 0x03, 0x03, 0x01] false = .bounce 1 0x02 0x03 0x03 0x01 := by decide

/-- MONITOR_SET of input 1 at 256, 0, 200 and 100. -/
theorem test_decode_monitorSet :
    decodeRequest 0 [0x13, 0x04, 0x01, 0x00, 0x01, 0x00, 0x00, 0xC8, 0x00, 0x64, 0x00] false =
      .monitorSet 0 0x04 0x01 256 0 200 100 := by decide

/-- EVENTS_SET of kinds 1 and 17 (bits 0 and 16). -/
theorem test_decode_eventsSet :
    decodeRequest 0 [0x16, 0x00, 0x01, 0x00, 0x01] false = .eventsSet 0 0x00 0x010001 := by decide

/-- SUPPLY_LIMITS of 9 900 and 9 000 mV (0x26AC, 0x2328). -/
theorem test_decode_supplyLimits :
    decodeRequest 0 [0x1A, 0x00, 0xAC, 0x26, 0x28, 0x23] false = .supplyLimits 0 0x00 9900 9000 := by decide

theorem test_decode_readHub : decodeRequest 2 [0x20, 0x7F] false = .readHub 2 0x7F := by decide

/-- A code outside the catalogue, and a length that is not the catalogue's. -/
theorem test_decode_refused :
    decodeRequest 2 [0x22, 0x7F] false = .unknownRequest 2 [0x22, 0x7F] false ∧
      decodeRequest 2 [0x02, 0x7F] false = .unknownRequest 2 [0x02, 0x7F] false := by decide

/-- The table gives no row bits: a table word puts no command into the queue. -/
theorem test_tableWord : decodeTableWord 8 1 = none ∧ (hub.withFetchWord 8 1).pending = [] := by decide +kernel

/-! ## Arithmetic, from the manual's tables -/

/-- The table of R5, whose third row is a tie, and of section 1.7.1. -/
theorem test_roundCycle :
    roundCycle 2000 4 = 2000 ∧ roundCycle 1000 3 = 999 ∧ roundCycle 1001 2 = 1002 ∧ roundCycle 250 16 = 256 ∧
      roundCycle 30000 7 = 29995 ∧ roundCycle 2317 4 = 2316 ∧ roundCycle 2318 4 = 2320 ∧ roundCycle 180 4 = 252 := by
  decide +kernel

/-- The table of R83, and its numerator of -24. -/
theorem test_seamBlend :
    (seamBlend (List.replicate 48 480000) (List.replicate 48 (-96000))).getD 11 0 = 48000 ∧
      (seamBlend (List.replicate 48 100) (List.replicate 48 7)).getD 0 0 = 9 ∧
      (seamBlend (List.replicate 48 (-1)) (List.replicate 48 (-3))).getD 46 0 = -1 ∧ roundAway (-24) 48 = -1 := by
  decide +kernel

/-- The samples of R88. -/
theorem test_ramps :
    (fadeIn (List.replicate 48 480000)).getD 0 0 = 10000 ∧
      (fadeOut (List.replicate 48 (-1000001))).getD 23 0 = -500001 ∧
      (fadeOut (List.replicate 48 480000)).getD 47 7 = 0 := by decide +kernel

/-- A sample's three bytes, little-endian two's complement (R193). -/
theorem test_sampleBytes :
    sampleBytes (-2) = [0xFE, 0xFF, 0xFF] ∧ bytesSample 0x00 0x00 0x80 = -8388608 ∧
      bytesSample 0xFF 0xFF 0x7F = 8388607 := by decide +kernel

/-- Readings 3 to 9 of section 9.9.1, with the default limits. -/
theorem test_supplyStates :
    supplyAfter .normal 6650 6600 6000 = .normal ∧ supplyAfter .normal 6590 6600 6000 = .thrift ∧
      supplyAfter .thrift 6720 6600 6000 = .thrift ∧ supplyAfter .thrift 6810 6600 6000 = .normal ∧
      supplyAfter .thrift 5980 6600 6000 = .critical ∧ supplyAfter .critical 6120 6600 6000 = .critical ∧
      supplyAfter .critical 6240 6600 6000 = .thrift := by decide

/-- The temperatures of section 9.9.1. -/
theorem test_thermalStates :
    thermalAfter .cool 84 = .cool ∧ thermalAfter .cool 85 = .hot ∧ thermalAfter .hot 100 = .scorch ∧
      thermalAfter .scorch 93 = .scorch ∧ thermalAfter .scorch 89 = .hot ∧ thermalAfter .hot 81 = .hot ∧
      thermalAfter .hot 79 = .cool := by decide

/-- Writing the value an unlisted byte reads as lists nothing (log 6). -/
theorem test_memory_form :
    writeBytes [(5, 1), (7, 2)] 5 [0, 3] = [(6, 3), (7, 2)] ∧ readByte [(6, 3), (7, 2)] 5 = 0 := by decide +kernel

/-! ## Witnesses: steps and invariants -/

/-- The pages but page 0. -/
def otherPages : List Page := ((List.range 4095).map (· + 1)).map (Fin.ofNat 4096)

/-- A hub RUNNING with a layer of T0 on page 0, one byte in take memory and a boundary that waits. -/
def rolling : State :=
  { (({ hub with cyc := playing 250 2 249 3 1000, mem := [(5, 7)],
                 pgp := { Pgp.reset with free := otherPages, lowest := 4095 } } :
      State).withLayer 0 (some (liveLayer 0 250 0 [(0, 0)]))).withTrack 0
        { Track.reset with state := .looping, mult := some 1, anchor := some 0, stack := [0] } with
    pending := [.blockBoundary []] }

theorem rolling_pages : rolling.mappedPages = [0] := by decide +kernel

theorem pages_from_zero :
    (List.range 4096).map (Fin.ofNat 4096) = (0 : Page) :: otherPages := by
  have h : ∀ n, List.range (n + 1) = 0 :: (List.range n).map (· + 1) := fun n => List.range_succ_eq_map
  rw [h 4095]
  exact List.map_cons

theorem rolling_pagesPlaced : rolling.pagesPlaced := by
  have hf : rolling.pgp.free = otherPages := by simp only [rolling, State.withLayer, State.withTrack]
  have hr : rolling.pgp.reserved = [] := by simp only [rolling, State.withLayer, State.withTrack, Pgp.reset]
  unfold State.pagesPlaced
  rw [rolling_pages, pages_from_zero, hf, hr, List.append_nil]
  exact List.perm_append_singleton _ _

theorem rolling_layers (id : LayerId) (l : Layer) (h : rolling.layer id = some l) :
    id = 0 ∧ l = liveLayer 0 250 0 [(0, 0)] := by
  have hs : ∀ id, rolling.layer id = if id = 0 then some (liveLayer 0 250 0 [(0, 0)]) else none := by decide +kernel
  rw [hs] at h
  split at h
  · exact ⟨‹_›, (Option.some.inj h).symm⟩
  · cases h

theorem rolling_storeLegal : rolling.storeLegal := by
  have hr : ∀ t, (rolling.track t).redo = [] := by decide +kernel
  have hp : ∀ i, rolling.pass i = none := by decide +kernel
  have hl : rolling.layer 0 = some (liveLayer 0 250 0 [(0, 0)]) := by decide +kernel
  refine ⟨⟨fun t => ⟨?_, ?_, ?_, ?_, ?_, ?_⟩, ?_⟩, ⟨by decide +kernel, ?_⟩, ⟨by decide +kernel, by decide +kernel, ?_⟩,
    ⟨?_, ?_, ?_, ?_, ?_, ?_⟩⟩
  · exact (by decide +kernel : ∀ t, (rolling.track t).stack.length ≤ 12) t
  · rw [hr]; decide
  · exact (by decide +kernel : ∀ t, (rolling.track t).stack.Nodup) t
  · rw [hr]; decide
  · intro id hid
    have h := (by decide +kernel : ∀ t, ∀ id ∈ (rolling.track t).stack, id = 0 ∧ t = 0) t id hid
    exact ⟨_, by rw [h.1]; exact hl, by rw [h.2]; rfl, Or.inr rfl⟩
  · intro id hid; rw [hr] at hid; cases hid
  · intro id l h
    obtain ⟨rfl, rfl⟩ := rolling_layers id l h
    exact ⟨fun _ => by decide +kernel, fun h => by cases h⟩
  · intro id l h hs
    obtain ⟨rfl, rfl⟩ := rolling_layers id l h
    cases hs
  · intro id l h hs
    obtain ⟨rfl, rfl⟩ := rolling_layers id l h
    cases hs
  · intro i p h; rw [hp] at h; cases h
  · intro id l h hs
    obtain ⟨rfl, rfl⟩ := rolling_layers id l h
    cases hs
  · intro id l h hs
    obtain ⟨rfl, rfl⟩ := rolling_layers id l h
    cases hs
  · intro _; decide +kernel
  · intro b h; exact absurd h (by rw [show rolling.bne.active = none by decide +kernel]; nofun)
  · intro w h; exact absurd h (by rw [show rolling.bne.waiting = [] by decide +kernel]; nofun)

/-- An empty queue and one with a command. -/
theorem witness_StepRunsTheFrontCommand : hub.pending = [] ∧ rolling.pending = [.blockBoundary []] := by decide +kernel

/-- A hub that meets the six invariants and steps: for StepKeepsTakeMemoryForm, StepKeepsTimelineLegal,
StepKeepsPagesPlaced, StepKeepsQueuesBounded and StepKeepsReplyRoom. -/
theorem witness_StepKeepsTheInvariants :
    Memory.wf rolling.mem = true ∧ rolling.cyc.legal ∧ rolling.pagesPlaced ∧ rolling.storeLegal ∧ rolling.bounded ∧
      rolling.replyRoom ∧ ∃ t, step rolling = .next t := by
  refine ⟨by decide +kernel, ?_, rolling_pagesPlaced, rolling_storeLegal, ?_, ?_, ⟨_, rfl⟩⟩
  · exact ⟨by decide, by decide, by decide, by decide, ⟨250, 2, rfl, rfl, by decide, by decide, by decide, by decide,
      by decide⟩, ⟨250, 249, rfl, rfl, by decide⟩, rfl, rfl, rfl, rfl⟩
  · unfold State.bounded
    decide +kernel
  · unfold State.replyRoom
    decide +kernel

/-- R193: the largest request body SLK keeps, and a request with its packet. -/
theorem witness_RequestPacketsRoundTrip :
    (List.replicate 262 (0 : Byte)).length ≤ 262 ∧ (Instr.tap 2 0x01 0x04).wellFormed = true ∧
      requestLink (.tap 2 0x01 0x04) = some 2 ∧ requestBody (.tap 2 0x01 0x04) = some [0x02, 0x01, 0x04] ∧
      (Instr.unknownRequest 1 [] true).wellFormed = true := by decide +kernel

/-- Commands that leave the block number: a request, a reading at 3 300 mV, and a stopped hub's measurement below it. -/
theorem witness_BlockNumberMovesOnlyAtTheBoundary :
    (∃ t, exec (.tap 0 0x00 0x00) hub = .next t) ∧ (∃ t, exec (.supplyReading 3300 none ⟨false, false, false, false⟩)
      { hub with smn.phase := 99 } = .next t) ∧ ∃ t, exec (.brownoutEnd 3299) { hub with stopped := true, smn.readOwed := true } = .next t :=
  ⟨⟨_, rfl⟩, ⟨_, rfl⟩, ⟨_, rfl⟩⟩

/-- The boundary's statements, in RUNNING below and at L - 1, and at rest. -/
theorem witness_BoundaryAdvancesThePosition :
    rolling.stopped = false ∧ rolling.settled = true ∧ rolling.triggerOverdue = false ∧ rolling.cyc.state = .running ∧
      rolling.cyc.pos = some 249 ∧ rolling.cyc.len = some 250 ∧
      band.stopped = false ∧ band.settled = true ∧ band.triggerOverdue = false ∧ band.cyc.pos = some 7 ∧
      hub.settled = true ∧ hub.triggerOverdue = false ∧ hub.cyc.state = .unset := by decide +kernel

/-- A station that subscribes to every kind hears the marks. -/
def hearing (s : State) : State := s.withStation 0 { Settings.reset with subs := allKinds }

/-- A TRANSPORT_STOP of station 1 due in block `due`. -/
def stopEntry (due : Nat) : Entry :=
  { action := .transportStop, mode := .cycle, station := 1, tag := 0x34, due := due, arrival := 0, passLayer := none }

/-- R16: the beat mark 0 stands before the cycle mark. R18: the block in which a stop is due has none. -/
theorem test_marks :
    ((after (.blockBoundary []) (hearing rolling)).link 0).events.map (·.body) = [.beatMark 0, .cycleMark 250 2] ∧
      ((after (.blockBoundary []) ((hearing rolling).withAqu ⟨[stopEntry 1001], 1, 0⟩)).link 0).events = [] := by
  decide +kernel

/-- Section 1.8: at L - 1 the position wraps and C advances; N advances. -/
theorem test_blockBoundary_wraps :
    (after (.blockBoundary []) rolling).cyc.pos = some 0 ∧ (after (.blockBoundary []) rolling).cyc.count = 4 ∧
      (after (.blockBoundary []) rolling).cyc.block = 1001 := by decide +kernel

/-- The input of section 4.1.1 in period 1 000: blocks stamped 232 and 234 wait, the flag is PRESENT. -/
def guitar : State :=
  { hub with cyc := { Cyc.reset with block := 1000 },
             pse.inputs := hub.pse.inputs.set 2
               { InputRec.reset with slots := [(232, List.replicate 48 5), (234, silence)], present := true,
                                     ring := [silence] } }

/-- Section 4.1.1: resolution of stamp 232, then silence and a dropout for 233. -/
theorem test_blockBoundary_resolves :
    ((after (.blockBoundary []) guitar).input 2).slots = [(234, silence)] ∧
      ((after (.blockBoundary []) guitar).input 2).ring = [List.replicate 48 5, silence] ∧
      ((after (.blockBoundary []) (after (.blockBoundary []) guitar)).input 2).dropouts = 1 ∧
      ((after (.blockBoundary []) (after (.blockBoundary []) guitar)).input 2).present = false := by decide +kernel

/-- A hub that records on input 0: layer L3 with page 10 in slot 0. -/
def recording : State :=
  ((hub.withLayer 3 (some { liveLayer 0 250 0 [(0, 10)] with state := .recording, length := none, written := 0 })).withPass
    0 (some (writing 0 .measure 3))).withCyc { Cyc.reset with state := .measuring, measureStart := some 0 }

/-- The measuring hub's boundary: its pass writes on, in a slot that holds a page. -/
theorem witness_BoundaryAdvancesThePosition_measuring :
    recording.stopped = false ∧ recording.settled = true ∧ recording.triggerOverdue = false ∧
      recording.cyc.state = .measuring ∧ recording.bne.active = none ∧
      ∀ i, (recording.pass i).all (fun p => p.cut = none &&
        (recording.layer p.layer).any fun l => (slotPage l.map (p.writePos / 256)).isSome) = true := by decide +kernel

/-- A block filed under the stamp of the period, none on a link in RUN. -/
theorem witness_BoundaryEndsThePeriod :
    guitar.stopped = false ∧ (guitar.input 2).slots.any (fun c => c.1 = guitar.cyc.block % 256) = true ∧
      (guitar.input 1).slots.any (fun c => c.1 = guitar.cyc.block % 256) = false ∧ guitar.linkRuns 1 = true := by
  decide +kernel

/-- A dropout that station 0 hears of: the input was PRESENT and nothing is filed; and one whose block is filed. -/
theorem witness_BoundaryEndsThePeriod_dropout :
    (∀ n ∈ [1000, 1001], (hearing (guitar.withCyc { Cyc.reset with block := n })).stopped = false ∧
      (hearing (guitar.withCyc { Cyc.reset with block := n })).settled = true ∧
      (hearing (guitar.withCyc { Cyc.reset with block := n })).triggerOverdue = false ∧
      (hearing (guitar.withCyc { Cyc.reset with block := n })).strokeDue = false ∧
      (hearing (guitar.withCyc { Cyc.reset with block := n })).linkRuns 2 = true ∧
      ((hearing (guitar.withCyc { Cyc.reset with block := n })).input 2).present = true ∧
      (hearing (guitar.withCyc { Cyc.reset with block := n })).hears 0 .inputDropout 4 = true) ∧
      guitar.linkRuns 1 = true ∧ (guitar.input 1).present = false := by decide +kernel

/-- R70: the start of a gap is told once. -/
theorem test_inputDropout :
    ((after (.blockBoundary []) (after (.blockBoundary []) (hearing (guitar.withCyc
      { Cyc.reset with block := 1001 })))).link 0).events.map (·.body) = [.inputDropout 2 1] := by decide +kernel

/-- The same pass with `n` blocks to backfill. -/
def filling (n : Nat) : State := recording.withPass 0 (some { writing 0 .measure 3 with backfill := n, snap := n, writePos := n })

theorem witness_BoundaryWritesTheResolvedBlock :
    ∀ n ∈ [0, 8, 9], (filling n).stopped = false ∧ (filling n).settled = true ∧ (filling n).triggerOverdue = false ∧
      (filling n).bne.active = none ∧
      (filling n).pass 0 = some { writing 0 .measure 3 with backfill := n, snap := n, writePos := n } ∧
      (∀ j, j ≠ 0 → (filling n).pass j = none) ∧
      (filling n).layer 3 =
        some { liveLayer 0 250 0 [(0, 10)] with state := .recording, length := none, written := 0 } ∧
      slotPage [(0, 10)] (n / 256) = some 10 := by decide +kernel

/-- The band that records one block on a layer L3 without pages, from a pool of the pages `free`. -/
def unpaged (kind : PassKind) (free : List Page) : State :=
  ((band.withLayer 3 (some { liveLayer 0 250 3 [] with state := .recording, written := 1 })).withPass 0
    (some { writing 0 kind 3 with writePos := 1 })).withPgp { smallPool with free := free }

/-- An absent slot with a page to be had, and with neither a page nor a victim. -/
theorem witness_BoundaryWritesTheResolvedBlock_claim :
    (∀ free ∈ [[(100 : Page), 101], []], (unpaged .fixed free).stopped = false ∧ (unpaged .fixed free).settled = true ∧
      (unpaged .fixed free).triggerOverdue = false ∧ (unpaged .fixed free).bne.active = none ∧
      (unpaged .fixed free).pass 0 = some { writing 0 .fixed 3 with writePos := 1 } ∧
      (∀ j, j ≠ 0 → (unpaged .fixed free).pass j = none) ∧
      (unpaged .fixed free).layer 3 = some { liveLayer 0 250 3 [] with state := .recording, written := 1 } ∧
      slotPage ([] : List (Nat × Page)) (1 / 256) = none ∧ (unpaged .fixed free).pgp.free = free) ∧
      (unpaged .fixed []).victim = none ∧
      (hearing (unpaged .fixed [])).hears 0 .passEnded 4 = true := by decide +kernel

/-- A pool with a page to claim, its low flag off, heard by station 0. -/
def fewPages : State :=
  (hearing (unpaged .fixed [100, 101])).withPgp { smallPool with free := [100, 101], low := false }

/-- The claim that moves the low mark. -/
theorem witness_BoundaryWritesTheResolvedBlock_low :
    fewPages.stopped = false ∧ fewPages.settled = true ∧ fewPages.triggerOverdue = false ∧ fewPages.bne.active = none ∧
      fewPages.pass 0 = some { writing 0 .fixed 3 with writePos := 1 } ∧ fewPages.pgp.free = [100, 101] ∧
      fewPages.pgp.low = false ∧ fewPages.hears 0 .poolLow 5 = true := by decide +kernel

/-- R65: fewer than 256 pages free after the claim. -/
theorem test_poolLow :
    ((after (.blockBoundary []) fewPages).link 0).events.map (·.body) = [.poolLow true 1] ∧
      (after (.blockBoundary []) fewPages).pgp.low = true := by decide +kernel

/-- R81: the page at the free list's head; R89: the pass cut STARVED. -/
theorem test_unpaged :
    ((after (.blockBoundary []) (unpaged .fixed [100, 101])).layer 3).map (·.map) = some [(0, 100)] ∧
      (after (.blockBoundary []) (unpaged .fixed [])).pgp.starved = 1 ∧
      ((after (.blockBoundary []) (unpaged .fixed [])).layer 3).map (·.state) = some .live := by decide +kernel

theorem witness_BoundaryClosesTheAccount : hub.bounded ∧ (∃ t, exec (.blockBoundary [1]) hub = .next t) ∧ hub.stopped = false := by
  refine ⟨?_, ⟨_, rfl⟩, rfl⟩
  unfold State.bounded
  decide +kernel

/-- The band at its boundary; in hold, where the cap is 0 and its three layers are shed, it is heard. -/
theorem witness_BoundaryClosesTheAccount_mix :
    band.mixesAlone ∧ (hearing (band.withTmc { Tmc.reset with mem := .retaining })).mixesAlone ∧
      (allLayers.filter (hearing (band.withTmc { Tmc.reset with mem := .retaining })).sounds).length = 3 ∧
      (hearing band).mxe.shed = false ∧
      (hearing (band.withTmc { Tmc.reset with mem := .retaining })).hears 0 .voiceShed 4 = true := by
  unfold State.mixesAlone
  decide +kernel

/-- R112, R114, R119: three candidates, all admitted. R120: in hold all three are shed. -/
theorem test_mix :
    (after (.blockBoundary []) band).mxe.lastMix = ⟨3, 32, 3, 0, 3⟩ ∧
      (after (.blockBoundary []) band).mxe.played.map (·.layer) = [2, 1, 0] ∧
      ((after (.blockBoundary []) (hearing (band.withTmc { Tmc.reset with mem := .retaining }))).link 0).events.map
        (·.body) = [.voiceShed true 3 0 0] := by decide +kernel

/-- R148: one pass written, refresh 2, no voices: the account of the block. -/
theorem test_blockBoundary_account : (after (.blockBoundary []) recording).tmc.account = ⟨1, 2, 0, 37⟩ := by decide +kernel

/-- A hub whose station 1 takes returns of bus A, with one sample of 5 000 000 on input 0 (the first row of R123). -/
def sounding : State :=
  (hub.withStation 1 { Settings.reset with ret := .a }).withInput 0
    { InputRec.reset with slots := [(0, 5000000 :: List.replicate 47 0)], nomA := 200, ring := [] }

theorem witness_BoundaryFillsTheReturnSlots :
    sounding.stopped = false ∧ sounding.settled = true ∧ sounding.triggerOverdue = false ∧ sounding.cyc.state = .unset ∧
      sounding.mxe.played = [] ∧ (∀ i, sounding.pass i = none) ∧ sounding.linkRuns 1 = true ∧
      (sounding.station 1).ret = .a ∧ (sounding.station 2).ret = .none ∧
      (sounding.withPass 0 (some { writing 0 .fixed 3 with cut := some .stop, backfill := 9 })).settled = true := by
  decide +kernel

/-- Two inputs at full scale on both buses, heard by station 1 (R125). -/
def clipping : State :=
  ((sounding.withStation 1 { Settings.reset with ret := .b, subs := [.busClip] }).withInput 0
    { InputRec.reset with slots := [(0, List.replicate 48 8388607)], nomB := 256, ring := [] }).withInput 1
    { InputRec.reset with slots := [(0, List.replicate 48 8388607)], nomB := 256, ring := [] }

/-- The band with a sample of 5 000 000 at the position of its layer L0 at level 200, a station that takes bus A, and the
voices that played before. -/
def voiced (played : List Played) (mute : Bool) : State :=
  ((((((band.withLayer 0 (some { liveLayer 0 250 0 [(0, 10)] with level := 200 })).withLayer 1 none).withLayer 2
    none).withTrack 0 { band.track 0 with mute := mute, stack := [0] }).withStation 1
    { Settings.reset with ret := .a }).withMem (writeBlock [] 10 7 (5000000 :: List.replicate 47 0))).withMxe
    { Mxe.reset with played := played }

/-- The entry of that layer in the played-voice set. -/
def voiceL0 : Played := ⟨0, 0, 0, 200, 256, .both, 0⟩

theorem witness_BoundaryFillsTheReturnSlots_voices :
    clipping.mixesAlone ∧ clipping.mxe.lastClipB = none ∧ clipping.mxe.played = [] ∧ clipping.hears 1 .busClip 6 = true ∧
      (∀ x ∈ [(([] : List Played), false), ([voiceL0], false), ([voiceL0], true)], (voiced x.1 x.2).mixesAlone ∧
        (voiced x.1 x.2).linkRuns 1 = true ∧ ((voiced x.1 x.2).station 1).ret = .a) ∧
      [voiceL0].Pairwise (fun a b => a.rank ≤ b.rank) ∧ (voiced [voiceL0] true).lingers voiceL0 = true := by
  unfold State.mixesAlone
  decide +kernel

/-- R121, R122: the voice term floor(5 000 000 x 200 x 256 / 65 536) = 3 906 250, its fade-in's frame 0 a 48th of it, its
fade-out's 47 48ths. -/
theorem test_voiceTerms :
    ((after (.blockBoundary []) (voiced [voiceL0] false)).link 1).ret = some ⟨.a, 232, 3906250 :: List.replicate 47 0⟩ ∧
      ((after (.blockBoundary []) (voiced [] false)).link 1).ret = some ⟨.a, 232, 81380 :: List.replicate 47 0⟩ ∧
      ((after (.blockBoundary []) (voiced [voiceL0] true)).link 1).ret = some ⟨.a, 232, 3824869 :: List.replicate 47 0⟩ := by
  decide +kernel

/-- R125: the clip frames and the peak of the sum of two full-scale inputs. -/
theorem test_busClip :
    ((after (.blockBoundary []) clipping).link 1).events.map (·.body) =
      [.busClip .a 1 48 16777214, .busClip .b 1 48 16777214] := by decide +kernel

/-- The second row of R123's table. -/
theorem test_blockBoundary_monitor :
    ((after (.blockBoundary []) sounding).link 1).ret = some ⟨.a, 0, 3906250 :: List.replicate 47 0⟩ := by decide +kernel

/-- Stations that subscribe, that are quiet, that do not subscribe, and one whose 16 events wait. -/
def listening : State :=
  ((((hub.withStation 0 { Settings.reset with subs := [.beatMark] }).withStation 1
    { Settings.reset with subs := [.beatMark], quiet := true }).withStation 3
    { Settings.reset with subs := [.beatMark] })).withLink 3
    { LinkRec.reset with state := .run, events := List.replicate 16 ⟨.beatMark 0, ⟨0, none, 0⟩, false, false⟩ }

theorem witness_EventsReachTheStations :
    (EventBody.beatMark 1).urgent = false ∧ (∀ lk, (EventBody.beatMark 1).excludes lk = false) ∧
      (∀ lk, listening.linkRuns lk = true) ∧ (listening.station 0).subs.contains (EventBody.beatMark 1).kind = true ∧
      (listening.link 0).events.length < 16 ∧ (listening.station 1).quiet = true ∧
      (listening.station 2).subs.contains (EventBody.beatMark 1).kind = false ∧
      16 ≤ (listening.link 3).events.length ∧ (listening.station 3).quiet = false ∧
      (EventBody.hubRestarted 0 0 .active).urgent = true ∧
      ∀ lk, (EventBody.hubRestarted 0 0 .active).excludes lk = false := by decide +kernel

/-- A quiet station with pending kinds, subscribed to QUIET_SUMMARY or to BEAT_MARK alone. -/
def quieted (subs : List EventKind) : State :=
  hub.withStation 0 { Settings.reset with subs := subs, quiet := true, pendingKinds := [.beatMark, .passEnded] }

theorem witness_EventsReachTheStations_quiet :
    ((quieted allKinds).station 0).quiet = true ∧ ((quieted allKinds).station 0).pendingKinds ≠ [] ∧
      ((quieted allKinds).station 0).subs.contains .quietSummary = true ∧
      ((quieted allKinds).link 0).events.length < 15 ∧ (quieted allKinds).linkRuns 0 = true ∧
      ((quieted [.beatMark]).station 0).subs.contains .quietSummary = false := by decide +kernel

/-- R191: the summary stands ahead of the urgent event, and is not queued without a subscription. -/
theorem test_quiet_urgent :
    ((emit (.hubRestarted 0 0 .active) (quieted allKinds)).link 0).events.map (·.body) =
        [.quietSummary [.beatMark, .passEnded], .hubRestarted 0 0 .active] ∧
      ((emit (.hubRestarted 0 0 .active) (quieted [.beatMark])).link 0).events.map (·.body) =
        [.hubRestarted 0 0 .active] := by decide +kernel

/-- R190: events that are urgent, of ROUTE_FAIL and of another kind. -/
def urgentEvent (b : EventBody) : Event := ⟨b, ⟨0, none, 0⟩, false, true⟩

/-- A queue with an event that is not urgent before urgent ones, and queues of urgent ones with and without ROUTE_FAIL. -/
theorem witness_EventsReachTheStations_evict :
    (⟨.beatMark 0, ⟨0, none, 0⟩, false, false⟩ : Event).urgent = false ∧
      (∀ x ∈ [urgentEvent (.routeFail .self 0x01 [0] 0), urgentEvent (.hubRestarted 0 0 .active)], x.urgent = true) ∧
      (urgentEvent (.routeFail .self 0x01 [0] 0)).body.kind = .routeFail ∧
      (urgentEvent (.hubRestarted 0 0 .active)).body.kind ≠ .routeFail := by decide +kernel

/-- R190: the newest that is not urgent goes, else the newest ROUTE_FAIL, else the newest. -/
theorem test_evict :
    evict [⟨.beatMark 0, ⟨0, none, 0⟩, false, false⟩, ⟨.beatMark 1, ⟨0, none, 0⟩, false, false⟩,
        urgentEvent (.hubRestarted 0 0 .active)] =
      [⟨.beatMark 0, ⟨0, none, 0⟩, false, false⟩, urgentEvent (.hubRestarted 0 0 .active)] ∧
      evict [urgentEvent (.routeFail .self 0x01 [0] 0), urgentEvent (.hubRestarted 0 0 .active)] =
        [urgentEvent (.hubRestarted 0 0 .active)] ∧
      evict [urgentEvent (.hubRestarted 0 0 .active), urgentEvent (.hubRestarted 1 0 .active)] =
        [urgentEvent (.hubRestarted 0 0 .active)] := by decide +kernel

/-- R190: a full queue without an urgent event loses its newest to an urgent one. -/
theorem test_urgent_evicts :
    ((emit (.hubRestarted 0 0 .active) listening).link 3).events.length = 16 ∧
      ((emit (.hubRestarted 0 0 .active) listening).station 3).dropped = 1 := by decide +kernel

/-! ## Witnesses: requests in general -/

/-- Two links with a request each: after link 3, link 0 is served first. -/
theorem witness_RequestIsTakenAndAnswered :
    (asked (.readHub 1 0x02) (asked (.readHub 0 0x01) hub)).selected = some 0 ∧
      (asked (.readHub 1 0x02) (asked (.readHub 0 0x01) hub)).eligible 0 = true ∧ hub.linkRuns 0 = true ∧
      (listening.station 1).quiet = true ∧ (listening.station 0).quiet = false := by decide +kernel

/-- A request with a refused argument, one in hold, and the three headers that are refused. -/
theorem witness_RefusedRequestsChangeNothing :
    meets 1 (.trackErase 1 0x05 0x08) hub (fun _ => requestLink (.trackErase 1 0x05 0x08) = some 1 ∧
        requestBody (.trackErase 1 0x05 0x08) = some [0x0C, 0x05, 0x08] ∧ argsAccepted (.trackErase 1 0x05 0x08) = false) ∧
      meets 1 (.songClear 1 0x05) { hub with tmc.mem := .retaining } (fun s => s.inHold = true ∧
        requestBody (.songClear 1 0x05) = some [0x05, 0x05] ∧ argsAccepted (.songClear 1 0x05) = true ∧
        refusedInHold (.songClear 1 0x05) = true) ∧
      meets 1 (.unknownRequest 1 [0x02] false) hub (fun _ => [(0x02 : Byte)].length < 2) ∧
      meets 1 (.unknownRequest 1 [0x02, 0x01, 0x00] true) hub (fun _ => True) ∧
      meets 1 (.unknownRequest 1 [0x22, 0x01] false) hub (fun _ => catalogueArgs 0x22 = none) ∧
      meets 1 (.unknownRequest 1 [0x02, 0x01] false) hub (fun _ => catalogueArgs 0x02 = some 1) := by decide +kernel

/-- R192: the reply to a code outside the catalogue. -/
theorem test_unknownRequest :
    answerOf 1 (served (.unknownRequest 1 [0x22, 0x01] false) hub) = some .unknown ∧
      answerOf 1 (served (.unknownRequest 1 [0x02, 0x01] false) hub) = some .malformed := by decide +kernel

/-! ## Witnesses: the timeline -/

/-- R4: both ends of the range that a multiple of 16 beats may have. -/
theorem witness_CycleIsTheNearestMultiple : (16 : Nat) ≤ 16 ∧ 250 ≤ 16 * 16 ∧ 1875 * 16 ≤ 30000 := by decide

theorem witness_CycleSetStartsTheTimeline :
    meets 0 (.cycleSet 0 0x01 2000 0x04) hub (fun s => s.inHold = false ∧ beatsArg 0x04 = some 4 ∧ s.cyc.state = .unset) ∧
      meets 0 (.cycleSet 0 0x01 65535 0x10) hub (fun s =>
        s.inHold = false ∧ beatsArg 0x10 = some 16 ∧ s.cyc.state = .unset) ∧
      meets 0 (.cycleSet 0 0x01 2000 0x01) band (fun s =>
        s.inHold = false ∧ beatsArg 0x01 = some 1 ∧ s.cyc.state ≠ .unset) := by decide +kernel

/-- The last row of the table of R5. -/
theorem test_cycleSet :
    (served (.cycleSet 0 0x01 40000 0x07) hub).cyc.len = some 29995 ∧
      (served (.cycleSet 0 0x01 40000 0x07) hub).cyc.setting = 7 ∧
      answerOf 0 (served (.cycleSet 0 0x01 40000 0x07) hub) = some .ok := by decide +kernel

/-- The count-in of section 1.6.1 in block `n` after the taps `taps`, the last one in block `tap`. -/
def counting (taps : List Nat) (tap n : Nat) : State :=
  { hub with cyc := { Cyc.reset with state := .counting, taps := taps, lastTap := some tap, block := n } }

/-- R7 at both ends of an interval, after two intervals, and after the fourth tap. -/
theorem witness_TapCountsIn :
    meets 0 (.tap 0 0x01 0x00) hub (fun s => s.inHold = false ∧ tapBeatsArg 0x00 = some none ∧ s.cyc.state = .unset) ∧
      meets 0 (.tap 0 0x01 0x10) band (fun s => s.inHold = false ∧ tapBeatsArg 0x10 = some (some 16) ∧
        s.cyc.state ≠ .unset ∧ s.cyc.state ≠ .counting) ∧
      meets 0 (.tap 0 0x01 0x03) (counting [] 40000 40000) (fun s => s.inHold = false ∧
        tapBeatsArg 0x03 = some (some 3) ∧ s.cyc.state = .counting ∧ s.cyc.schedStart = none ∧
        s.cyc.lastTap = some 40000 ∧ diff32 s.cyc.block 40000 = 0) ∧
      meets 0 (.tap 0 0x01 0x00) (counting [578] 40578 42579) (fun s => s.inHold = false ∧ s.cyc.state = .counting ∧
        s.cyc.schedStart = none ∧ s.cyc.lastTap = some 40578 ∧ diff32 s.cyc.block 40578 = 2001) ∧
      meets 0 (.tap 0 0x01 0x00) (counting [578] 40578 42578) (fun s => s.inHold = false ∧ s.cyc.state = .counting ∧
        s.cyc.schedStart = none ∧ s.cyc.lastTap = some 40578 ∧ diff32 s.cyc.block 40578 = 2000 ∧
        s.cyc.taps.length < 2) ∧
      meets 0 (.tap 0 0x01 0x00) (counting [578, 583] 41161 41741) (fun s => s.inHold = false ∧
        s.cyc.state = .counting ∧ s.cyc.schedStart = none ∧ s.cyc.lastTap = some 41161 ∧
        1 ≤ diff32 s.cyc.block 41161 ∧ diff32 s.cyc.block 41161 ≤ 2000 ∧ 2 ≤ s.cyc.taps.length) := by decide +kernel

/-- The fourth tap of section 1.6.1, and its third tap 2 001 blocks after the second. -/
theorem test_tap :
    (served (.tap 0 0x01 0x00) (counting [578, 583] 41161 41741)).cyc.schedStart = some 42321 ∧
      (served (.tap 0 0x01 0x00) (counting [578, 583] 41161 41741)).cyc.len = some 2320 ∧
      (served (.tap 0 0x01 0x00) (counting [578] 40578 42579)).cyc.taps = [] ∧
      (served (.tap 0 0x01 0x00) (counting [578] 40578 42579)).cyc.lastTap = some 42579 := by decide +kernel

/-- A hub at rest after a stop, with track T0 that loops. -/
def rested : State := band.withCyc (paused 250 2 1000)

theorem witness_TransportStopsAndRestarts :
    meets 0 (.transportStop 0 0x01 0x02) (counting [] 40000 40100) (fun s => s.inHold = false ∧
        quantizeArg 0x02 = some .cycle ∧ s.pendingSame 0 .transportStop = none ∧ s.cyc.state = .counting) ∧
      meets 0 (.transportStop 0 0x01 0x00) band (fun s => s.inHold = false ∧ quantizeArg 0x00 = some .now ∧
        s.pendingSame 0 .transportStop = none ∧ s.cyc.state = .running) ∧
      meets 0 (.transportStop 0 0x01 0x00) hub (fun s => s.inHold = false ∧ s.pendingSame 0 .transportStop = none ∧
        s.cyc.state ≠ .counting ∧ s.cyc.state ≠ .running) ∧
      meets 0 (.transportStart 0 0x01 0x02) rested (fun s => s.inHold = false ∧ s.cyc.state = .paused ∧
        s.cyc.len = some 250 ∧ s.cyc.beats = some 2) ∧
      meets 0 (.transportStart 0 0x01 0x02) band (fun s => s.inHold = false ∧ s.cyc.state ≠ .paused) := by
  decide +kernel

/-- R19: the stop leaves PAUSED at p = 0 with C kept. -/
theorem test_transportStop :
    (served (.transportStop 0 0x01 0x00) band).cyc.state = .paused ∧
      (served (.transportStop 0 0x01 0x00) band).cyc.pos = some 0 ∧
      (served (.transportStop 0 0x01 0x00) band).cyc.count = 3 := by decide +kernel

/-- R20: the restart places every track that is not EMPTY anew. -/
theorem test_transportStart :
    (served (.transportStart 0 0x01 0x02) rested).cyc.state = .running ∧
      ((served (.transportStart 0 0x01 0x02) rested).track 0).anchor = some 0 ∧
      ((served (.transportStart 0 0x01 0x02) rested).track 1).anchor = none := by decide +kernel

theorem witness_SongClearEndsTheLoopSet :
    meets 0 (.songClear 0 0x01) band (fun s => s.inHold = false ∧ s.layer 40 = none ∧ s.bne.active = none ∧
        (2 : LayerId) ∈ (s.track 0).stack ++ (s.track 0).redo ∧ s.cyc.state = .running) ∧
      meets 0 (.songClear 0 0x01) rested (fun s => s.inHold = false ∧ s.cyc.state ≠ .running ∧
        s.cyc.state ≠ .counting) ∧
      meets 0 (.songClear 0 0x01) (band.withBne { Bne.reset with engine := .scanning, active := some scan }) (fun s =>
        s.inHold = false ∧ s.bne.active ≠ none) ∧
      meets 0 (.songClear 0 0x01) (hub.withCyc { playing 2320 4 0 0 41800 with
          state := .counting, pos := none, taps := [578, 583, 580], schedStart := some 42321 }) (fun s =>
        s.inHold = false ∧ s.cyc.state = .counting ∧ s.cyc.schedStart ≠ none) := by decide +kernel

/-- The band at the start of a beat, in a block in which the hold of the reading before has not been made yet: its marks are
withheld. Station 0 hears them. -/
def holdKnown : State :=
  after (.blockBoundary []) (hearing ({ band with cyc := playing 250 2 124 3 1000 } : State) |>.withTmc
    { Tmc.reset with trigger := some (.critical, 1000) })

/-- Marks withheld, and a free list that the freeing takes over the low mark. -/
theorem witness_SongClearEndsTheLoopSet_events :
    meets 1 (.songClear 1 0x01) holdKnown (fun s => s.inHold = false ∧ s.cyc.withheld = true ∧
        s.cyc.pos = some 125 ∧ s.cyc.len = some 250 ∧ s.cyc.beats = some 2 ∧ s.hears 0 .beatMark 4 = true) ∧
      meets 1 (.songClear 1 0x01) ((hearing band).withCyc { playing 250 2 0 3 1000 with withheld := true }) (fun s =>
        s.inHold = false ∧ s.cyc.withheld = true ∧ s.cyc.pos = some 0 ∧ s.hears 0 .cycleMark 4 = true) ∧
      meets 1 (.songClear 1 0x01) ((hearing band).withPgp { smallPool with low := false }) (fun s =>
        s.inHold = false ∧ s.cyc.withheld = false ∧ s.hears 0 .poolLow 8 = true) := by decide +kernel

/-- R16, R18: the hold that waits withholds the beat mark; the SONG_CLEAR that comes first sends it. -/
theorem test_withheld :
    (holdKnown.link 0).events = [] ∧
      ((served (.songClear 1 0x01) holdKnown).link 0).events.map (·.body) = [.beatMark 1] ∧
      ((after .holdEntry holdKnown).link 0).events.map (·.body) = [.holdDraining .critical none .normal .cool .paused] := by
  decide +kernel

/-- R49: the layers' pages return, and C is 0. -/
theorem test_songClear :
    (served (.songClear 0 0x01) band).pgp.free.length = 15 ∧ (served (.songClear 0 0x01) band).layer 1 = none ∧
      (served (.songClear 0 0x01) band).cyc.count = 0 := by decide +kernel

/-! ## Witnesses: passes -/

/-- A hub in UNSET with twelve free pages. -/
def bare : State := { hub with pgp := smallPool }

theorem witness_PassOpenMeasures :
    meets 0 (.passOpen 0 0x01 0x02 0x05 0x00) bare (fun s => s.inHold = false ∧ inputArg 0x02 = some 2 ∧
      trackArg 0x05 = some 5 ∧ quantizeArg 0x00 = some .now ∧ s.pendingSame 0 (.passOpen 2 5) = none ∧
      s.cyc.state = .unset ∧ s.pass 2 = none ∧ (s.track 5).state = .empty ∧ (s.track 5).stack = [] ∧
      (s.track 5).redo = [] ∧ s.freeRecord = some 0 ∧
      s.pgp.free = 100 :: [101, 102, 103, 104, 105, 106, 107, 108, 109, 110, 111] ∧
      lowFlagAfter s.pgp.low 11 = s.pgp.low) := by decide +kernel

/-- An OPEN pass on T5 at a distance of 0 and of the whole grace from the cycle boundary. -/
theorem witness_PassOpenMeasures_opening :
    ∀ p ∈ [0, 80], meets 0 (.passOpen 0 0x01 0x02 0x05 0x02) (band.withCyc (playing 250 2 p 3 1000)) (fun s =>
      s.inHold = false ∧ quantizeArg 0x02 = some .cycle ∧ s.pendingSame 0 (.passOpen 2 5) = none ∧
      s.cyc.state = .running ∧ s.cyc.pos = some p ∧ s.cyc.len = some 250 ∧ p ≤ (s.station 0).grace ∧ p < 256 ∧
      s.pass 2 = none ∧ (s.track 5).state = .empty ∧ (s.track 5).stack = [] ∧ (s.track 5).redo = [] ∧
      s.freeRecord = some 3 ∧ s.pgp.free.head? = some 100 ∧ lowFlagAfter s.pgp.low 11 = s.pgp.low) := by decide +kernel

/-- The band with a cycle of 1 000 blocks and 10 beats at p = 280 and one free page. -/
def squeezed : State := (band.withCyc (playing 1000 10 280 3 1000)).withPgp { smallPool with free := [100], lowest := 1 }

/-- The band without a free page. -/
def emptied : State := band.withPgp { smallPool with free := [], lowest := 0 }

/-- A FIXED pass on T0 at once, over a snapped span of one slot, over one of two slots with a single page, and with none. -/
theorem witness_PassOpenMeasures_fixed :
    (∀ x ∈ [((0x00 : Byte), Quantize.now, 0), (0x02, .cycle, 7)],
      meets 0 (.passOpen 0 0x01 0x02 0x00 x.1) band (fun s => s.inHold = false ∧ quantizeArg x.1 = some x.2.1 ∧
        s.pendingSame 0 (.passOpen 2 0) = none ∧ s.cyc.state = .running ∧ s.pass 2 = none ∧
        (s.track 0).state = .looping ∧ (s.track 0).stack.length < 12 ∧ (s.track 0).redo = [] ∧ s.freeRecord = some 3 ∧
        s.timing 0 (.passOpen 2 0) x.2.1 = .atOnce x.2.2 ∧ s.trackPos 0 = some 7 ∧ s.trackLen 0 = some 250 ∧
        s.pgp.free.head? = some 100 ∧ lowFlagAfter s.pgp.low 11 = s.pgp.low)) ∧
      meets 0 (.passOpen 0 0x01 0x02 0x00 0x01) squeezed (fun s => s.inHold = false ∧ quantizeArg 0x01 = some .beat ∧
        s.pendingSame 0 (.passOpen 2 0) = none ∧ s.freeRecord = some 3 ∧
        s.timing 0 (.passOpen 2 0) .beat = .atOnce 80 ∧ s.trackPos 0 = some 280 ∧ s.trackLen 0 = some 1000 ∧
        s.pgp.free.length + s.reclaimable < 2 ∧ s.pgp.free = 100 :: [] ∧ lowFlagAfter s.pgp.low 0 = s.pgp.low) ∧
      meets 0 (.passOpen 0 0x01 0x02 0x00 0x00) emptied (fun s => s.inHold = false ∧ s.freeRecord = some 3 ∧
        s.timing 0 (.passOpen 2 0) .now = .atOnce 0 ∧ s.trackPos 0 = some 7 ∧ s.pgp.free = [] ∧ s.victim = none ∧
        (s.track 0).stack ≠ [] ∧ (3 : LayerId) ∉ (s.track 0).stack) := by decide +kernel

/-- R55, R79: seven blocks are snapped; a group claim that fails drops the snap; without a page the serial counter has still
advanced (log 11). -/
theorem test_passOpen_snap :
    ((served (.passOpen 0 0x01 0x02 0x00 0x02) band).pass 2).map (fun p => (p.start, p.backfill, p.writePos)) =
        some (0, 7, 7) ∧
      ((served (.passOpen 0 0x01 0x02 0x00 0x01) squeezed).pass 2).map (fun p => (p.start, p.backfill)) =
        some (280, 0) ∧
      (served (.passOpen 0 0x01 0x02 0x00 0x01) squeezed).pgp.groupRefusals = 1 ∧
      answerOf 0 (served (.passOpen 0 0x01 0x02 0x00 0x00) emptied) = some .noRoom ∧
      (served (.passOpen 0 0x01 0x02 0x00 0x00) emptied).lys.serials = 1 := by decide +kernel

/-- R78: the measuring pass takes record 0 and the page at the free list's head. -/
theorem test_passOpen :
    ((served (.passOpen 0 0x01 0x02 0x05 0x00) bare).layer 0).map (·.map) = some [(0, 100)] ∧
      (served (.passOpen 0 0x01 0x02 0x05 0x00) bare).cyc.state = .measuring ∧
      ((served (.passOpen 0 0x01 0x02 0x05 0x00) bare).track 5).state = .opening := by decide +kernel

/-- The measuring pass of section 1.7.1 on input 0, begun in block 10 000, in block `n`; its layer has ten pages. -/
def measured (n : Nat) : State :=
  (((bare.withLayer 0 (some { liveLayer 0 0 0 ((List.range 10).map fun k => (k, Fin.ofNat 4096 k)) with
      state := .recording, length := none, written := n - 10000 })).withPass 0
    (some { writing 0 .measure 0 with writePos := n - 10000 })).withTrack 0
    { Track.reset with state := .opening, anchor := some 0, stack := [0] }).withCyc
    { Cyc.reset with state := .measuring, measureStart := some 10000, block := n }

/-- The closing blocks 12 317 (m above L), 12 316 (m = L) and 12 318 (m below L) of section 1.7.1. -/
theorem witness_PassCloseFixesTheCycle :
    (∀ n ∈ [12317, 12316, 12318], meets 0 (.passClose 0 0x01 0x00 0x02) (measured n) (fun s => s.inHold = false ∧
      inputArg 0x00 = some 0 ∧ quantizeArg 0x02 = some .cycle ∧ s.pendingSame 0 (.passClose 0) = none ∧
      s.pass 0 = some { writing 0 .measure 0 with writePos := n - 10000 } ∧ s.cyc.state = .measuring ∧
      s.cyc.measureStart = some 10000 ∧ (s.layer 0).map (·.written) = some (diff32 s.cyc.block 10000))) ∧
      roundCycle (diff32 12317 10000) 4 < diff32 12317 10000 ∧ diff32 12316 10000 = roundCycle (diff32 12316 10000) 4 ∧
      diff32 12318 10000 < roundCycle (diff32 12318 10000) 4 := by decide +kernel

/-- The rows of section 1.7.1. -/
theorem test_passClose :
    (served (.passClose 0 0x01 0x00 0x02) (measured 12317)).cyc.len = some 2316 ∧
      (served (.passClose 0 0x01 0x00 0x02) (measured 12317)).cyc.pos = some 1 ∧
      (served (.passClose 0 0x01 0x00 0x02) (measured 12317)).cyc.count = 1 ∧
      (served (.passClose 0 0x01 0x00 0x02) (measured 12318)).cyc.pos = some 2318 ∧
      (served (.passClose 0 0x01 0x00 0x02) (measured 12318)).cyc.count = 0 := by decide +kernel

/-! ## Witnesses: the action queue -/

/-- The hub of section 5.1.1 at p = 1 237: L = 2 000, B = 4, T1 LOOPING with k = 2, T5 EMPTY. -/
def footBoard (grace : Nat) : State :=
  (({ hub with cyc := playing 2000 4 1237 2 1000 } : State).withTrack 1
    { Track.reset with state := .looping, mult := some 2, anchor := some 0, stack := [0] }).withStation 0
    { Settings.reset with grace := grace }

theorem witness_QuantizeModesNameTheDueBlock :
    (footBoard 80).cyc.state = .running ∧ (footBoard 80).cyc.pos = some 1237 ∧ (footBoard 80).cyc.len = some 2000 ∧
      (footBoard 80).cyc.beats = some 4 ∧ (footBoard 80).trackLen 1 = some 4000 ∧ (footBoard 80).trackPos 1 = some 1237 ∧
      (footBoard 80).trackLen 5 = none ∧ ((footBoard 80).track 5).state ≠ .looping ∧
      ((footBoard 80).station 0).grace < 1237 ∧
      (rolling.withStation 0 { Settings.reset with grace := 249 }).cyc.pos = some 249 ∧
      ((rolling.withStation 0 { Settings.reset with grace := 249 }).station 0).grace = 249 := by decide +kernel

/-- The foot board at p = 1 580, as far from its beat as the grace, and at 1 581; with an OPEN, a FIXED and a measuring
pass on T1. -/
theorem witness_QuantizeModesNameTheDueBlock_passes :
    (∀ p ∈ [1580, 1581], ((footBoard 80).withCyc (playing 2000 4 p 2 1000)).cyc.state = .running ∧
        ((footBoard 80).withCyc (playing 2000 4 p 2 1000)).cyc.pos = some p ∧
        ((footBoard 80).withCyc (playing 2000 4 p 2 1000)).trackLen 1 = some 4000 ∧
        ((footBoard 80).withCyc (playing 2000 4 p 2 1000)).trackPos 1 = some p ∧
        ((footBoard 80).track 1).state = .looping ∧ ((footBoard 80).station 0).grace = 80 ∧ p % (2000 / 4) = p - 1500) ∧
      ∀ k ∈ [PassKind.opening, .fixed, .measure],
        ((footBoard 80).withPass 2 (some (writing 1 k 0))).pass 2 = some (writing 1 k 0) ∧
        (writing 1 k 0).track = 1 ∧ (writing 1 k 0).kind = k := by decide +kernel

/-- The foot board at position `p` with a pass from input 3 on the OPENING track T5. -/
def firstPass (p : Nat) (kind : PassKind) : State :=
  (((footBoard 80).withCyc (playing 2000 4 p 2 1000)).withTrack 5
    { Track.reset with state := .opening, anchor := some 0, stack := [4] }).withPass 3 (some (writing 5 kind 4))

/-- A pass on a track without a length, as far from the cycle boundary as the grace, and one block further. -/
theorem witness_QuantizeModesNameTheDueBlock_firstPass :
    ∀ p ∈ [80, 81], ∀ k ∈ [PassKind.opening, .measure],
      (firstPass p k).cyc.state = .running ∧ (firstPass p k).cyc.pos = some p ∧ (firstPass p k).cyc.len = some 2000 ∧
        (firstPass p k).cyc.beats = some 4 ∧ (firstPass p k).pass 3 = some (writing 5 k 4) ∧
        (writing 5 k 4).kind = k ∧ ((firstPass p k).track 5).state = .opening ∧ (firstPass p k).trackLen 5 = none ∧
        ((firstPass p k).station 0).grace = 80 := by decide +kernel

/-- R97, R98, R82: the close of an OPEN pass within the grace and outside it, and of a measuring pass. -/
theorem test_timing_close :
    (firstPass 45 .opening).timing 0 (.passClose 3) .beat = .atOnce 45 ∧
      (firstPass 81 .opening).timing 0 (.passClose 3) .now = .due 2919 ∧
      (firstPass 81 .measure).timing 0 (.passClose 3) .track = .atOnce 0 := by decide +kernel

/-- R95: a hub in UNSET, and one that is counted in. -/
theorem witness_QuantizeModesNameTheDueBlock_atOnce :
    hub.cyc.state ≠ .running ∧ hub.cyc.state ≠ .counting ∧
      (hub.withCyc { Cyc.reset with state := .counting, schedStart := some 42321 }).cyc.state = .counting ∧
      (hub.withCyc { Cyc.reset with state := .counting, schedStart := some 42321 }).cyc.schedStart = some 42321 := by
  decide +kernel

/-- The first table of section 5.1.1, with N = 1 000. -/
theorem test_timing :
    (footBoard 80).timing 0 (.layerUndo 1) .beat = .due 1263 ∧
      (footBoard 80).timing 0 (.layerUndo 1) .cycle = .due 1763 ∧
      (footBoard 80).timing 0 (.trackMute 1 true) .track = .due 3763 ∧
      (footBoard 80).timing 0 (.trackMute 5 true) .track = .due 1763 ∧
      (footBoard 80).timing 0 .transportStop .track = .due 1763 ∧
      (footBoard 80).timing 0 (.passOpen 2 1) .beat = .due 1263 ∧
      (footBoard 80).timing 0 (.passOpen 2 1) .now = .atOnce 0 ∧
      (footBoard 80).timing 0 (.passOpen 3 5) .beat = .due 1763 := by decide +kernel

/-- The grace cases of section 5.1.1. -/
theorem test_timing_grace :
    ((footBoard 80).withCyc (playing 2000 4 1537 2 1000)).timing 0 (.passOpen 2 1) .beat = .atOnce 37 ∧
      ((footBoard 80).withCyc (playing 2000 4 1590 2 1000)).timing 0 (.passOpen 2 1) .beat = .due 1410 ∧
      ((footBoard 0).withCyc (playing 2000 4 1500 2 1000)).timing 0 (.passOpen 2 1) .beat = .atOnce 0 := by
  decide +kernel

/-- An entry of station 0. -/
def muteEntry (t : TrackId) (due arrival : Nat) : Entry :=
  { action := .trackMute t true, mode := .cycle, station := 0, tag := 0x33, due := due, arrival := arrival,
    passLayer := none }

/-- The band with entries in its queue. -/
def queued (q : List Entry) : State := band.withAqu ⟨q, 9, 0⟩

/-- A request that waits, one that withdraws, one refused by its taking check, and one that meets 16 entries. -/
theorem witness_QuantizedRequestWaits :
    meets 0 (.trackMute 0 0x01 0x00 0x02 0x01) (queued []) (fun s => s.inHold = false ∧
        quantizedOf (.trackMute 0 0x01 0x00 0x02 0x01) = some (0, 0x01, .trackMute 0 true, .cycle) ∧
        s.pendingSame 0 (.trackMute 0 true) = none ∧ s.takingCheck (.trackMute 0 true) = none ∧
        s.timing 0 (.trackMute 0 true) .cycle = .due 1243 ∧ s.aqu.queue.length < 16) ∧
      meets 0 (.trackMute 0 0x01 0x00 0x02 0x01) (queued [muteEntry 0 1243 8]) (fun s => s.inHold = false ∧
        s.pendingSame 0 (.trackMute 0 true) = some (muteEntry 0 1243 8)) ∧
      meets 0 (.passClose 0 0x01 0x00 0x00) band (fun s => s.inHold = false ∧
        quantizedOf (.passClose 0 0x01 0x00 0x00) = some (0, 0x01, .passClose 0, .now) ∧
        s.pendingSame 0 (.passClose 0) = none ∧ s.takingCheck (.passClose 0) = some .noPass) ∧
      meets 1 (.trackMute 1 0x01 0x00 0x02 0x01) (queued (List.replicate 16 (muteEntry 1 1243 8))) (fun s =>
        s.inHold = false ∧ s.pendingSame 1 (.trackMute 0 true) = none ∧ s.takingCheck (.trackMute 0 true) = none ∧
        s.timing 1 (.trackMute 0 true) .cycle = .due 1243 ∧ 16 ≤ s.aqu.queue.length) := by decide +kernel

/-- A queue in the order of the due blocks. -/
theorem witness_QuantizedRequestWaits_order :
    [muteEntry 0 1100 0, muteEntry 1 1243 1].Pairwise (fun x y => diff32 x.due 1000 ≤ diff32 y.due 1000) := by
  decide +kernel

/-- The checks of R77 one after the other, and a hub that passes them; R82 and R19 with them. -/
theorem witness_QuantizedRequestWaits_checks :
    (hub.withCyc { Cyc.reset with state := .counting, taps := [578] }).cyc.schedStart = none ∧
      hub.cyc.state = .unset ∧ band.cyc.state = .running ∧ (band.withCyc (paused 250 2 5)).cyc.state = .paused ∧
      (hub.withCyc { Cyc.reset with state := .counting, schedStart := some 42321 }).cyc.schedStart ≠ none ∧
      (band.withPass 0 (some (writing 0 .fixed 3))).pass 0 ≠ none ∧ band.pass 0 = none ∧
      ((firstPass 81 .opening).track 5).state = .opening ∧ (firstPass 81 .opening).pass 0 = none ∧
      (band.track 0).state ≠ .opening ∧ (band.track 0).stack.length < 12 ∧
      12 ≤ ((band.withTrack 0 { band.track 0 with stack := allLayers.take 12 }).track 0).stack.length := by decide +kernel

/-- R77, in its order: an input with a pass on an OPENING track; an OPENING track; a full stack. -/
theorem test_openChecks :
    (firstPass 81 .opening).takingCheck (.passOpen 3 5) = some .inputBusy ∧
      (firstPass 81 .opening).takingCheck (.passOpen 0 5) = some .trackOpening ∧
      (band.withTrack 0 { band.track 0 with stack := allLayers.take 12 }).takingCheck (.passOpen 0 0) = some .stackFull ∧
      (band.withCyc (paused 250 2 5)).takingCheck (.passOpen 0 0) = some .wrongState := by decide +kernel

/-- R101: an entry joins behind the entries due no later than it; its reply carries the due block and the distance. -/
theorem test_quantized :
    (served (.trackMute 1 0x01 0x00 0x02 0x01) (queued [muteEntry 1 1243 7, muteEntry 2 1500 8])).aqu.queue.map (·.arrival) =
        [7, 9, 8] ∧
      (((served (.trackMute 1 0x01 0x00 0x02 0x01) (queued [])).link 1).replies.map (·.payload)) =
        [.queued 1243 243 9] := by decide +kernel

/-! ## Witnesses: tracks and layers -/

/-- A PARKED layer of T0 on one page. -/
def parkedLayer (stamp : Nat) (pinned : Bool) : Layer :=
  { liveLayer 0 250 30 [(0, 20)] with state := .parked, pinned := pinned, stamp := some stamp }

/-- The band with the redo list `ids` on T0, every entry pinned or none. -/
def withRedo (ids : List LayerId) (pinned : Bool) : State :=
  (ids.zipIdx.foldl (fun s x => s.withLayer x.1 (some (parkedLayer x.2 pinned))) band).withTrack 0
    { band.track 0 with redo := ids }

/-- Twelve layer numbers, L10 to L21. -/
def twelve : List LayerId := [10, 11, 12, 13, 14, 15, 16, 17, 18, 19, 20, 21]

/-- Undo of a pass, of nothing, of the top layer, and against a full redo list whose head is pinned. -/
theorem witness_UndoParksTheTopLayer :
    meets 0 (.layerUndo 0 0x01 0x00 0x00) (band.withPass 2 (some (writing 0 .fixed 5))) (fun s => s.inHold = false ∧
        trackArg 0x00 = some 0 ∧ quantizeArg 0x00 = some .now ∧ s.pendingSame 0 (.layerUndo 0) = none ∧
        s.newestPass 0 = some 2) ∧
      meets 0 (.layerUndo 0 0x01 0x07 0x01) hub (fun s => s.inHold = false ∧ trackArg 0x07 = some 7 ∧
        quantizeArg 0x01 = some .beat ∧ s.cyc.state ≠ .running ∧ s.pendingSame 0 (.layerUndo 7) = none ∧
        s.newestPass 7 = none ∧ (s.track 7).stack = []) ∧
      meets 0 (.layerUndo 0 0x01 0x00 0x00) (withRedo twelve.tail false) (fun s => s.inHold = false ∧
        s.pendingSame 0 (.layerUndo 0) = none ∧ s.newestPass 0 = none ∧ (s.track 0).stack = [0, 1] ++ [2] ∧
        (2 : LayerId) ∉ ([0, 1] : List LayerId) ∧ s.layer 2 = some (liveLayer 0 250 2 [(0, 12)]) ∧
        (s.track 0).redo.length < 12 ∧ s.isSource 2 = false ∧ s.lys.parks < 4294967295) ∧
      meets 0 (.layerUndo 0 0x01 0x00 0x00) (withRedo twelve true) (fun s => s.inHold = false ∧
        s.pendingSame 0 (.layerUndo 0) = none ∧ s.newestPass 0 = none ∧ (s.track 0).stack = [0, 1] ++ [2] ∧
        (s.track 0).redo = 10 :: twelve.tail ∧ twelve.tail.length = 11 ∧ s.layer 10 = some (parkedLayer 0 true)) := by
  decide +kernel

/-- The band, whose events station 0 hears, with a pass on T0 from input 1 and a newer one from input 2. -/
def twoPasses : State :=
  hearing ((((((band.withTrack 0 { band.track 0 with stack := [0, 5, 1, 6] }).withLayer 5
    (some { liveLayer 0 250 7 [(0, 30)] with state := .recording, written := 9 })).withLayer 6
    (some { liveLayer 0 250 6 [(0, 31)] with state := .recording, written := 9 })).withPass 1
    (some (writing 0 .fixed 6))).withPass 2 (some { writing 0 .fixed 5 with order := 1, backfill := 3 })))

/-- The measuring hub with its OPENING track. -/
def measuring : State :=
  hearing (recording.withTrack 0 { Track.reset with state := .opening, anchor := some 0, stack := [3] })

/-- An abort that leaves its track LOOPING, and one that returns track and timeline. -/
theorem witness_UndoParksTheTopLayer_abort :
    meets 0 (.layerUndo 0 0x01 0x00 0x00) twoPasses (fun s => s.inHold = false ∧ s.pendingSame 0 (.layerUndo 0) = none ∧
        s.newestPass 0 = some 2 ∧ s.pass 2 = some { writing 0 .fixed 5 with order := 1, backfill := 3 } ∧
        (s.layer 5).map (·.track) = some 0 ∧ (5 : LayerId) ∉ (s.track 0).redo ∧
        (s.track 0).stack.filter (· ≠ 5) ≠ [] ∧ s.hears 0 .passEnded 2 = true) ∧
      meets 0 (.layerUndo 0 0x01 0x00 0x00) measuring (fun s => s.inHold = false ∧
        s.pendingSame 0 (.layerUndo 0) = none ∧ s.newestPass 0 = some 0 ∧ s.pass 0 = some (writing 0 .measure 3) ∧
        s.cyc.state = .measuring ∧ (s.layer 3).map (·.track) = some 0 ∧ (s.track 0).stack.filter (· ≠ 3) = [] ∧
        (s.track 0).redo = [] ∧ (s.track 0).state ≠ .empty ∧ (∀ j, j ≠ 0 → s.pass j = none) ∧
        s.hears 0 .passEnded 2 = true) := by decide +kernel

/-- R38, R91: the newer of two passes is aborted, its page joins the free-list tail; R14, R24: an aborted measuring pass. -/
theorem test_undo_abort :
    ((served (.layerUndo 0 0x01 0x00 0x00) twoPasses).track 0).stack = [0, 1, 6] ∧
      (served (.layerUndo 0 0x01 0x00 0x00) twoPasses).pgp.free.getLast? = some 30 ∧
      (served (.layerUndo 0 0x01 0x00 0x00) measuring).cyc.state = .unset ∧
      ((served (.layerUndo 0 0x01 0x00 0x00) measuring).track 0).state = .empty := by decide +kernel

/-- R38: undo parks the top layer; R40: redo returns it. -/
theorem test_undo_redo :
    ((served (.layerUndo 0 0x01 0x00 0x00) band).track 0).stack = [0, 1] ∧
      ((served (.layerUndo 0 0x01 0x00 0x00) band).track 0).redo = [2] ∧
      ((served (.layerRedo 0 0x02 0x00 0x00) (served (.layerUndo 0 0x01 0x00 0x00) band)).track 0).stack = [0, 1, 2] := by
  decide +kernel

/-- R39: a pinned head of a full redo list stands in the way of an undo; an unpinned one is freed. -/
theorem test_undo_full :
    answerOf 0 (served (.layerUndo 0 0x01 0x00 0x00) (withRedo twelve true)) = some .redoFull ∧
      ((served (.layerUndo 0 0x01 0x00 0x00) (withRedo twelve false)).track 0).redo = twelve.tail ++ [2] := by
  decide +kernel

theorem witness_RedoReturnsTheTail :
    meets 0 (.layerRedo 0 0x01 0x00 0x00) band (fun s => s.inHold = false ∧ s.pendingSame 0 (.layerRedo 0) = none ∧
        (s.track 0).redo = []) ∧
      meets 0 (.layerRedo 0 0x01 0x00 0x00) ((withRedo [30] false).withTrack 0
          { (withRedo [30] false).track 0 with stack := twelve }) (fun s => s.inHold = false ∧
        s.pendingSame 0 (.layerRedo 0) = none ∧ (s.track 0).redo ≠ [] ∧ 12 ≤ (s.track 0).stack.length) ∧
      meets 0 (.layerRedo 0 0x01 0x00 0x00) (withRedo twelve false) (fun s => s.inHold = false ∧
        s.pendingSame 0 (.layerRedo 0) = none ∧ (s.track 0).redo = twelve.dropLast ++ [21] ∧
        (s.track 0).stack.length < 12 ∧ s.layer 21 = some (parkedLayer 11 false)) ∧
      meets 0 (.trackMute 0 0x01 0x07 0x00 0x01) band (fun s => s.inHold = false ∧ trackArg 0x07 = some 7 ∧
        quantizeArg 0x00 = some .now ∧ settingArg 0x01 = some true ∧ s.pendingSame 0 (.trackMute 7 true) = none) := by
  decide +kernel

/-- A PASS_OPEN on a LOOPING track whose redo list holds an unpinned layer (R32). -/
theorem witness_PassOpenMeasures_redo :
    meets 0 (.passOpen 0 0x01 0x02 0x00 0x00) (withRedo [10] false) (fun s => s.inHold = false ∧ inputArg 0x02 = some 2 ∧
      trackArg 0x00 = some 0 ∧ quantizeArg 0x00 = some .now ∧ s.pendingSame 0 (.passOpen 2 0) = none ∧
      s.cyc.state = .running ∧ s.pass 2 = none ∧ (s.track 0).state = .looping ∧ (s.track 0).stack.length < 12 ∧
      (s.track 0).redo = [10] ∧ (10 : LayerId) ∉ (s.track 0).stack ∧ s.layer 10 = some (parkedLayer 0 false) ∧
      (parkedLayer 0 false).track = 0 ∧ (parkedLayer 0 false).pinned = false ∧
      s.pgp.free ++ [20] = 100 :: ([101, 102, 103, 104, 105, 106, 107, 108, 109, 110, 111] ++ [20])) := by decide +kernel

/-- R32: the redo layer's page joins the tail before the pass takes the head. -/
theorem test_passOpen_redo :
    (served (.passOpen 0 0x01 0x02 0x00 0x00) (withRedo [10] false)).pgp.free = smallPool.free.tail ++ [20] ∧
      ((served (.passOpen 0 0x01 0x02 0x00 0x00) (withRedo [10] false)).track 0).redo = [] := by decide +kernel

theorem witness_ClearParksTheStack :
    meets 0 (.trackClear 0 0x01 0x03 0x00) band (fun s => s.inHold = false ∧ s.pendingSame 0 (.trackClear 3) = none ∧
        (s.track 3).stack = [] ∧ s.passOn 3 = false) ∧
      meets 0 (.trackClear 0 0x01 0x00 0x00) (withRedo twelve true) (fun s => s.inHold = false ∧
        s.pendingSame 0 (.trackClear 0) = none ∧ (s.track 0).stack ≠ [] ∧
        12 < (s.liveOf (s.track 0).stack).length + (s.havingPin true (s.track 0).redo).length) ∧
      meets 0 (.trackClear 0 0x01 0x00 0x00) (withRedo (twelve.take 9) true) (fun s => s.inHold = false ∧
        s.pendingSame 0 (.trackClear 0) = none ∧ (s.track 0).stack ≠ [] ∧ s.passOn 0 = false ∧ s.bne.active = none ∧
        (s.track 0).stack.Nodup ∧ (∀ id ∈ (s.track 0).stack, (s.layer id).any (fun l => l.state = .live ∧ l.track = 0)) ∧
        (s.track 0).stack.length + (s.track 0).redo.length = 12 ∧ s.lys.parks + 12 < 4294967296) := by decide +kernel

/-- R41: the stack is parked top first. -/
theorem test_clear :
    ((served (.trackClear 0 0x01 0x00 0x00) (withRedo [10] false)).track 0).redo = [10, 2, 1, 0] ∧
      ((served (.trackClear 0 0x01 0x00 0x00) (withRedo [10] false)).track 0).stack = [] := by decide +kernel

theorem witness_EraseFreesTheTrack :
    meets 0 (.trackErase 0 0x01 0x03) band (fun s => s.inHold = false ∧ trackArg 0x03 = some 3 ∧
        (s.track 3).state = .empty) ∧
      meets 0 (.trackErase 0 0x01 0x00) (withRedo [10] false) (fun s => s.inHold = false ∧ (s.track 0).state = .looping ∧
        s.passOn 0 = false ∧ s.bne.active = none ∧ (s.track 0).stack ++ (s.track 0).redo = [0, 1, 2, 10] ∧
        ∀ id ∈ [(0 : LayerId), 1, 2, 10], (s.layer id).any (fun l => l.pinned = false ∧ l.track = 0)) := by
  decide +kernel

/-- An erase after which the low flag goes on, heard by station 2. -/
theorem witness_EraseFreesTheTrack_low :
    meets 0 (.trackErase 0 0x01 0x00) (((withRedo [10] false).withStation 2 { Settings.reset with subs := allKinds }).withPgp
        { smallPool with low := false }) (fun s => s.inHold = false ∧ (s.track 0).state = .looping ∧ s.passOn 0 = false ∧
        s.bne.active = none ∧ s.hears 2 .poolLow 1 = true ∧ s.pgp.low = false) := by decide +kernel

/-- R30, R42: the pages of the stack and of the redo list join the tail of the free list. -/
theorem test_erase :
    (served (.trackErase 0 0x01 0x00) (withRedo [10] false)).pgp.free = smallPool.free ++ [10, 11, 12, 20] ∧
      ((served (.trackErase 0 0x01 0x00) (withRedo [10] false)).track 0).state = .empty := by decide +kernel

/-- The band whose L1 is in another state. -/
def withState (x : LayerState) : State := band.withLayer 1 (some { liveLayer 0 250 1 [(0, 11)] with state := x })

theorem witness_TrackAndLayerLevelsAreSet :
    meets 0 (.trackLevel 0 0x01 0x07 300) band (fun s => s.inHold = false ∧ trackArg 0x07 = some 7) ∧
      meets 0 (.trackRoute 0 0x01 0x00 0x03) band (fun s => s.inHold = false ∧ routeArg 0x03 = some .both) ∧
      meets 0 (.layerLevel 0 0x01 0x2F 256) band (fun s => s.inHold = false ∧ layerArg 0x2F = some 47 ∧
        s.layer 47 = none) ∧
      meets 0 (.layerLevel 0 0x01 0x01 128) (withState .forming) (fun s => s.inHold = false ∧ layerArg 0x01 = some 1 ∧
        (s.layer 1).map (·.state) = some .forming) ∧
      meets 0 (.layerLevel 0 0x01 0x01 128) (scanning 0) (fun s => s.inHold = false ∧
        (s.layer 1).map (·.state) = some .live ∧ s.isSource 1 = true) ∧
      meets 0 (.layerLevel 0 0x01 0x02 128) (scanning 0) (fun s => s.inHold = false ∧
        (s.layer 2).map (·.state) = some .live ∧ s.isSource 2 = false) ∧
      meets 0 (.layerLevel 0 0x01 0x01 128) (withState .recording) (fun s => s.inHold = false ∧
        (s.layer 1).map (·.state) = some .recording) := by decide +kernel

theorem test_levels :
    ((served (.trackLevel 0 0x01 0x07 300) band).track 7).level = 256 ∧
      ((served (.trackRoute 0 0x01 0x00 0x01) band).track 0).route = .a ∧
      answerOf 0 (served (.layerLevel 0 0x01 0x01 128) (scanning 0)) = some .bouncing ∧
      ((served (.layerLevel 0 0x01 0x02 128) (scanning 0)).layer 2).map (·.level) = some 128 := by decide +kernel

/-- The band with `n` pinned pages in all. -/
def pinnedPages (n : Nat) : State := band.withPgp { smallPool with pinnedTotal := n }

/-- Pins of a FREE layer, of one that records, of a source, of a pinned layer, above 3 072 pages and at 3 072. -/
theorem witness_LayerPinFollowsTheLimit :
    layerArg 0x01 = some 1 ∧
      meets 0 (.layerPin 0 0x01 0x2F 0x01) band (fun s => s.inHold = false ∧ layerArg 0x2F = some 47 ∧ s.layer 47 = none) ∧
      meets 0 (.layerPin 0 0x01 0x01 0x01) (withState .recording) (fun s => s.inHold = false ∧
        (s.layer 1).map (·.state) = some .recording) ∧
      meets 0 (.layerPin 0 0x01 0x01 0x01) (scanning 0) (fun s => s.inHold = false ∧
        (s.layer 1).map (·.state) = some .live ∧ s.isSource 1 = true) ∧
      meets 0 (.layerPin 0 0x01 0x0A 0x01) (withRedo twelve true) (fun s => s.inHold = false ∧
        layerArg 0x0A = some 10 ∧ s.layer 10 = some (parkedLayer 0 true) ∧ s.isSource 10 = false) ∧
      meets 0 (.layerPin 0 0x01 0x01 0x01) (pinnedPages 3072) (fun s => s.inHold = false ∧ s.isSource 1 = false ∧
        s.layer 1 = some (liveLayer 0 250 1 [(0, 11)]) ∧ s.pgp.pinnedTotal + 1 = 3073) ∧
      meets 0 (.layerPin 0 0x01 0x01 0x01) (pinnedPages 3071) (fun s => s.inHold = false ∧ s.isSource 1 = false ∧
        s.layer 1 = some (liveLayer 0 250 1 [(0, 11)]) ∧ s.pgp.pinnedTotal + 1 = 3072) ∧
      meets 0 (.layerPin 0 0x01 0x2F 0x00) band (fun s => s.inHold = false ∧ s.layer 47 = none) ∧
      meets 0 (.layerPin 0 0x01 0x01 0x00) band (fun s => s.inHold = false ∧ (s.layer 1).map (·.pinned) = some false) ∧
      meets 0 (.layerPin 0 0x01 0x0A 0x00) (withRedo twelve true) (fun s => s.inHold = false ∧
        (s.layer 10).map (·.pinned) = some true) := by decide +kernel

/-- R64: the limit of 3 072 pinned pages is not exceeded. -/
theorem test_pin :
    answerOf 0 (served (.layerPin 0 0x01 0x01 0x01) (pinnedPages 3072)) = some .pinLimit ∧
      (served (.layerPin 0 0x01 0x01 0x01) (pinnedPages 3071)).pgp.pinnedTotal = 3072 := by decide +kernel

/-! ## Witnesses: bounce requests -/

theorem witness_BounceScanStarts :
    meets 1 (.bounce 1 0x01 0x00 0x02 0x00) (scanning 0) (fun s => s.inHold = false ∧ trackArg 0x00 = some 0 ∧
        bounceCountArg 0x02 = some 2 ∧ bounceModeArg 0x00 = some .scan ∧ s.bouncesFor 1 = true) ∧
      meets 2 (.bounce 2 0x01 0x00 0x08 0x01) (scanning 0) (fun s => s.inHold = false ∧ bounceCountArg 0x08 = some 8 ∧
        s.bouncesFor 2 = false ∧ s.bne.engine ≠ .idle) ∧
      meets 2 (.bounce 2 0x01 0x00 0x02 0x00) band (fun s => s.inHold = false ∧ s.bouncesFor 2 = false ∧
        s.bne.engine = .idle ∧ s.bne.waiting = [] ∧ (s.track 0).state = .looping ∧
        (s.track 0).stack = [0, 1] ++ [2] ∧
        (∀ id ∈ [(0 : LayerId), 1], (s.layer id).any (fun x => x.state = .live ∧ x.pinned = false)) ∧
        (s.track 0).mult = some 1 ∧ s.cyc.len = some 250) := by decide +kernel

/-- The band with a cycle of 3 075 blocks, whose commit needs 13 pages, one more than are free; and with one of 3 072. -/
theorem witness_BounceCommitClaimsItsPages :
    (∀ l ∈ [3072, 3075], meets 2 (.bounce 2 0x01 0x00 0x03 0x01) (band.withCyc (playing l 3 7 3 1000)) (fun s =>
      s.inHold = false ∧ bounceCountArg 0x03 = some 3 ∧ bounceModeArg 0x01 = some .commit ∧ s.bouncesFor 2 = false ∧
      s.bne.engine = .idle ∧ s.bne.waiting = [] ∧ (s.track 0).state = .looping ∧ (s.track 0).stack = [0, 1, 2] ++ [] ∧
      (∀ id ∈ [(0 : LayerId), 1, 2], (s.layer id).any (fun x => x.state = .live ∧ x.pinned = false)) ∧
      (s.track 0).mult = some 1 ∧ s.cyc.len = some l ∧ s.freeRecord = some 3 ∧
      (s.pgp.reserved ++ s.pgp.free).Nodup)) ∧
      (band.freeCount + band.reclaimable < (1 * 3075 + 255) / 256 ∧ (1 * 3072 + 255) / 256 ≤ band.freeCount) := by
  decide +kernel

/-- The band with a PARKED layer on T1, whose one page a commit of 13 pages lacks. -/
def reclaiming : State :=
  ((band.withCyc (playing 3075 3 7 3 1000)).withLayer 30
    (some { parkedLayer 4 false with track := 1, map := [(0, 20)] })).withTrack 1
    { Track.reset with state := .looping, mult := some 1, anchor := some 0, redo := [30] }

theorem witness_BounceCommitClaimsItsPages_reclaim :
    meets 2 (.bounce 2 0x01 0x00 0x03 0x01) reclaiming (fun s => s.inHold = false ∧ s.bouncesFor 2 = false ∧
      s.bne.engine = .idle ∧ s.bne.waiting = [] ∧ (s.track 0).state = .looping ∧ (s.track 0).stack = [0, 1, 2] ++ [] ∧
      (∀ id ∈ [(0 : LayerId), 1, 2], (s.layer id).any (fun x => x.state = .live ∧ x.pinned = false)) ∧
      (s.track 0).mult = some 1 ∧ s.cyc.len = some 3075 ∧ s.freeRecord = some 3 ∧ s.victim = some 30 ∧
      s.layer 30 = some { parkedLayer 4 false with track := 1, map := [(0, 20)] } ∧ s.freeCount + 1 = 13 ∧
      (3075 + 255) / 256 = 13 ∧ (30 : LayerId) ∉ (s.track 1).stack ∧
      (s.pgp.reserved ++ s.pgp.free ++ [20]).Nodup) := by decide +kernel

/-- R57, R58: the victim is freed and its page reserved. -/
theorem test_reclaim :
    (served (.bounce 2 0x01 0x00 0x03 0x01) reclaiming).pgp.reserved =
        [20, 100, 101, 102, 103, 104, 105, 106, 107, 108, 109, 110, 111] ∧
      (served (.bounce 2 0x01 0x00 0x03 0x01) reclaiming).pgp.reclaims = 1 ∧
      (served (.bounce 2 0x01 0x00 0x03 0x01) reclaiming).layer 30 = none ∧
      ((served (.bounce 2 0x01 0x00 0x03 0x01) reclaiming).track 1).redo = [] := by decide +kernel

/-- R60: the commit reserves its pages; one page short it is refused. -/
theorem test_bounceCommit :
    (served (.bounce 2 0x01 0x00 0x03 0x01) (band.withCyc (playing 3072 3 7 3 1000))).pgp.reserved.length = 12 ∧
      answerOf 2 (served (.bounce 2 0x01 0x00 0x03 0x01) (band.withCyc (playing 3075 3 7 3 1000))) = some .noRoom := by
  decide +kernel

/-- The first terms of the worked sum of R138, frame a: three sources at levels 256, 200 and 128. -/
def sourced : State :=
  ((band.withLayer 1 (some { liveLayer 0 250 1 [(0, 11)] with level := 200 })).withLayer 2
    (some { liveLayer 0 250 2 [(0, 12)] with level := 128 })).withMem
    (writeBlock (writeBlock (writeBlock [] 10 0 (List.replicate 48 6000000)) 11 0 (List.replicate 48 4000000)) 12 0
      (List.replicate 48 (-1000001)))

/-- R138, frame a. -/
theorem test_bounceSum :
    (bounceSum sourced [⟨0, 0, 256⟩, ⟨1, 1, 200⟩, ⟨2, 2, 128⟩] 0).getD 0 0 = 8624999 ∧ saturate 8624999 = 8388607 := by
  decide +kernel

/-! ## Witnesses: levels, settings, hold, read-back, reset -/

theorem witness_BusAndMonitorLevelsAreSet :
    (∀ bus ∈ [(0x00 : Byte), 0x01, 0x02], meets 0 (.busLevel 0 0x01 bus 256) { hub with tmc.mem := .retaining }
        (fun s => s.inHold = true)) ∧
      meets 0 (.monitorSet 0 0x01 0x03 0 256 257 65535) band (fun _ => inputArg 0x03 = some 3) := by decide +kernel

theorem witness_StationSettingsAreSet :
    meets 0 (.graceSet 0 0x01 0xFF) band (fun _ => True) ∧
      meets 0 (.returnSet 0 0x01 0x02) band (fun _ => returnArg 0x02 = some .b) ∧
      meets 0 (.eventsSet 0 0x01 0xFFFFFF) band (fun _ => True) ∧
      meets 1 (.quietSet 1 0x01 0x00) listening (fun s => (s.station 1).quiet = true) ∧
      meets 1 (.quietSet 1 0x01 0x01) listening (fun s => (s.station 1).quiet = true) := by decide +kernel

theorem test_settings :
    (served (.busLevel 0 0x01 0x02 300) hub).mxe.levelB = 256 ∧
      ((served (.monitorSet 0 0x01 0x03 0 256 257 65535) hub).input 3).takeA = 256 ∧
      ((served (.graceSet 0 0x01 0xFF) hub).station 0).grace = 200 ∧
      ((served (.eventsSet 0 0x01 0x010001) hub).station 0).subs = [.cycleMark, .routeFail] ∧
      ((served (.quietSet 1 0x01 0x01) hub).station 1).quiet = true ∧
      ((served (.quietSet 1 0x01 0x00) listening).station 1).quiet = false := by decide +kernel

/-- R191: a request of a quiet station ends the quiet with one QUIET_SUMMARY of its pending kinds. -/
theorem test_quietSummary :
    ((served (.readPool 1 0x01) (hub.withStation 1
      { Settings.reset with subs := [.quietSummary], quiet := true, pendingKinds := [.beatMark] })).link 1).events.map
        (·.body) = [.quietSummary [.beatMark]] := by decide +kernel

theorem witness_HoldEntersDraining :
    meets 0 (.hold 0 0x01) { hub with tmc.mem := .waking } (fun s => s.tmc.mem ≠ .active) ∧
      meets 0 (.hold 0 0x01) band (fun s => s.tmc.mem = .active ∧ s.strokeDue = false ∧ s.cyc.state = .running) ∧
      meets 0 (.hold 0 0x01) rested (fun s => s.tmc.mem = .active ∧ s.strokeDue = false ∧ s.cyc.state = .paused) ∧
      meets 0 (.hold 0 0x01) (counting [] 40000 40001) (fun s => s.tmc.mem = .active ∧ s.strokeDue = false ∧
        s.cyc.state = .counting ∧ s.cyc.schedStart = none) ∧
      meets 0 (.hold 0 0x01) (hub.withCyc { playing 2320 4 0 0 41800 with
          state := .counting, pos := none, taps := [578, 583, 580], schedStart := some 42321 }) (fun s =>
        s.tmc.mem = .active ∧ s.cyc.state = .counting ∧ s.cyc.schedStart ≠ none) ∧
      meets 0 (.hold 0 0x01) (scanning 63) (fun s => s.tmc.mem = .active ∧ s.strokeDue = false ∧
        s.bne.engine = .scanning) ∧
      meets 0 (.hold 0 0x01) recording (fun s => s.tmc.mem = .active ∧ s.pass 0 ≠ none) := by decide +kernel

theorem test_hold :
    (served (.hold 0 0x01) band).tmc.mem = .draining ∧ (served (.hold 0 0x01) band).tmc.holdStation = some 0 ∧
      (served (.hold 0 0x01) band).cyc.state = .paused := by decide +kernel

/-- A hub that retains, at the readings of section 9.9.1. -/
def retaining (u : Supply) (h : Thermal) (c : Int) : State :=
  { hub with tmc := { Tmc.reset with mem := .retaining },
             smn := { Smn.reset with supply := u, thermal := h, temperature := some c } }

theorem witness_ResumeAndLimitsAreChecked :
    meets 0 (.resume 0 0x01) hub (fun s => s.tmc.mem ≠ .retaining) ∧
      meets 0 (.resume 0 0x01) (retaining .normal .scorch 93) (fun s => s.tmc.mem = .retaining ∧
        s.smn.thermal = .scorch) ∧
      meets 0 (.resume 0 0x01) (retaining .normal .hot 90) (fun s => s.tmc.mem = .retaining ∧
        s.smn.temperature = some 90) ∧
      meets 0 (.resume 0 0x01) (retaining .critical .hot 89) (fun s => s.tmc.mem = .retaining ∧
        ¬(s.smn.thermal = .scorch) ∧ s.smn.temperature = some 89 ∧ s.smn.supply = .critical) ∧
      meets 0 (.resume 0 0x01) (retaining .thrift .hot 89) (fun s => s.tmc.mem = .retaining ∧
        ¬(s.smn.thermal = .scorch) ∧ s.smn.temperature = some 89 ∧ s.smn.supply ≠ .critical) ∧
      meets 0 (.supplyLimits 0 0x01 6100 6000) hub (fun _ => limitArg 6100 < limitArg 6000 + 200) ∧
      meets 0 (.supplyLimits 0 0x01 6200 6000) hub (fun _ => limitArg 6000 + 200 ≤ limitArg 6200) := by decide +kernel

/-- The table of R167, and the RESUME column of section 9.9.1. -/
theorem test_supplyLimits :
    ((served (.supplyLimits 0 0x01 20000 3000) hub).link 0).replies.map (·.payload) = [.limits 16000 3300] ∧
      answerOf 0 (served (.supplyLimits 0 0x01 6100 6000) hub) = some .badArg ∧
      answerOf 0 (served (.supplyLimits 0 0x01 3000 2000) hub) = some .badArg ∧
      answerOf 0 (served (.resume 0 0x01) (retaining .normal .scorch 93)) = some .cooling ∧
      answerOf 0 (served (.resume 0 0x01) (retaining .critical .cool 40)) = some .lowSupply := by decide +kernel

theorem witness_ReadsAnswerTheRecord :
    meets 0 (.readCycle 0 0x01) band (fun _ => True) ∧ meets 0 (.readTrack 0 0x01 0x07) band (fun _ => trackArg 0x07 = some 7) ∧
      meets 0 (.readLayer 0 0x01 0x2F) band (fun _ => layerArg 0x2F = some 47) ∧ meets 0 (.readPool 0 0x01) band (fun _ => True) ∧
      meets 0 (.readStation 0 0x01 0x03) band (fun _ => stationArg 0x03 = some 3) ∧
      meets 0 (.readHub 0 0x01) { band with tmc.mem := .retaining } (fun _ => True) := by decide +kernel

/-- R194: the timeline record of the band, its length 250 (0xFA), its position 7 and its block 1 000 (0x03E8). -/
theorem test_cycleRecord :
    cycleRecord band.cyc = [0x03, 0x01, 0xFA, 0x00, 0x01, 0x02, 0x01, 0x7D, 0x00, 0x02, 0x01, 0x07, 0x00, 0x03, 0x00, 0xE8,
      0x03, 0x00, 0x00, 0x00, 0x00, 0x00, 0x00] := by decide +kernel

/-- A READ changes nothing but the links' part of the hub. -/
theorem test_readCycle :
    (served (.readCycle 0 0x01) band).cyc = band.cyc ∧ answerOf 0 (served (.readCycle 0 0x01) band) = some .ok := by
  decide +kernel

theorem witness_HubResetKeepsTheLinks :
    meets 0 (.hubReset 0 0x01) band (fun s => s.tmc.mem = .active) ∧
      meets 0 (.hubReset 0 0x01) { band with tmc := { Tmc.reset with mem := .draining, holdEntry := some 1000 } }
        (fun s => s.tmc.mem = .draining) ∧
      meets 0 (.hubReset 0 0x01) (retaining .normal .cool 40) (fun s => s.tmc.mem = .retaining) := by decide +kernel

/-- R188: the block number stays, the settings return to their defaults. -/
theorem test_hubReset :
    (served (.hubReset 0 0x01) (footBoard 20)).cyc.block = 1000 ∧
      ((served (.hubReset 0 0x01) (footBoard 20)).station 0).grace = 80 ∧
      (served (.hubReset 0 0x01) (retaining .normal .cool 40)).tmc.wakeEnd = some 2 := by decide +kernel

/-! ## Witnesses: the steps of the hub's own -/

/-- The count-in of section 1.6.1 after its fourth tap, in block `n`. -/
def countedIn (n : Nat) : State :=
  hub.withCyc { playing 2320 4 0 0 n with
    state := .counting, pos := none, taps := [578, 583, 580], schedStart := some 42321 }

/-- A scheduled start, none, and a measuring pass of Lmax(4) blocks. -/
theorem witness_TimelineMovesByItself :
    ((countedIn 42321).stopped = false ∧ (countedIn 42321).endSettled = true ∧
        (countedIn 42321).cyc.state = .counting ∧ (countedIn 42321).cyc.schedStart = some (countedIn 42321).cyc.block ∧
        (countedIn 42321).cyc.len = some 2320 ∧ (countedIn 42321).cyc.beats = some 4) ∧
      ((countedIn 42320).endSettled = true ∧ (countedIn 42320).cyc.schedStart ≠ some (countedIn 42320).cyc.block) ∧
      ((measured 40000).stopped = false ∧ (measured 40000).endSettled = true ∧
        (measured 40000).pass 0 = some { writing 0 .measure 0 with writePos := 30000 } ∧
        (∀ j, j ≠ 0 → (measured 40000).pass j = none) ∧ ((measured 40000).layer 0).isSome ∧
        (measured 40000).cyc.state = .measuring ∧ (measured 40000).cyc.measureStart = some 10000 ∧
        (measured 40000).cyc.setting = 4 ∧ diff32 (measured 40000).cyc.block 10000 = lmax 4) := by decide +kernel

/-- Section 1.6.1: the boundary into the scheduled start. -/
theorem test_scheduledStart :
    (after .scheduledStart (countedIn 42321)).cyc.state = .running ∧
      (after .scheduledStart (countedIn 42321)).cyc.pos = some 0 ∧
      (after .scheduledStart (countedIn 42320)).cyc.state = .counting := by decide +kernel

/-- R13: the close after Lmax blocks. -/
theorem test_measureAutoClose :
    (after .measureAutoClose (measured 40000)).cyc.len = some 30000 ∧
      (after .measureAutoClose (measured 40000)).cyc.count = 1 ∧
      (after .measureAutoClose (measured 40000)).cyc.pos = some 0 := by decide +kernel

/-- An OPEN pass on T0, begun at cycle count `anchor`, at the cycle boundary `count` with or without a carried close. -/
def overdub (anchor count : Nat) (close : Option Nat) : State :=
  (((hub.withCyc (playing 250 2 0 count 5000)).withTrack 0
    { Track.reset with state := .opening, anchor := some anchor, stack := [0] }).withLayer 0
    (some { liveLayer 0 0 0 [(0, 10)] with state := .recording, length := none, written := 250 })).withPass 0
    (some { writing 0 .opening 0 with close := close, writePos := 250 })

theorem witness_OpenPassClosesOnTheBoundary :
    ∀ x ∈ [(53756, 4, (none : Option Nat)), (0, 7, none), (0, 1, some 0), (0, 0, some 0)],
      (overdub x.1 x.2.1 x.2.2).stopped = false ∧ (overdub x.1 x.2.1 x.2.2).endSettled = true ∧
      (overdub x.1 x.2.1 x.2.2).pass 0 = some { writing 0 .opening 0 with close := x.2.2, writePos := 250 } ∧
      ((overdub x.1 x.2.1 x.2.2).layer 0).map (·.length) = some none ∧ (overdub x.1 x.2.1 x.2.2).cyc.state = .running ∧
      (overdub x.1 x.2.1 x.2.2).cyc.pos = some 0 ∧ (overdub x.1 x.2.1 x.2.2).cyc.len = some 250 ∧
      ((overdub x.1 x.2.1 x.2.2).track 0).anchor = some x.1 ∧
      (x.2.1 + (53760 - x.1 % 53760)) % 53760 = (if x.1 = 53756 then 8 else x.2.1) := by decide +kernel

/-- R85 across the wrap of C, and R86: k = 8, and k = 1. -/
theorem test_openPass_closes :
    ((after (.openPassEighthBoundary 0) (overdub 53756 4 none)).track 0).mult = some 8 ∧
      ((after (.carriedClose 0) (overdub 0 1 (some 0))).track 0).mult = some 1 ∧
      ((after (.carriedClose 0) (overdub 0 0 (some 0))).track 0).mult = none := by decide +kernel

/-- An OPEN pass on T0 with a whole cycle behind it and `pos` blocks written past the boundary. -/
def pastBoundary (pos : Nat) : State :=
  (((overdub 0 1 none).withCyc (playing 250 2 pos 1 5000)).withLayer 0
    (some { liveLayer 0 0 0 [(0, 10)] with state := .recording, length := none, written := 250 + pos })).withPass 0
    (some { writing 0 .opening 0 with writePos := 250 + pos })

/-- A close of an OPEN pass before its first whole cycle, on the boundary, and as far past it as the grace. -/
theorem witness_PassCloseFixesTheCycle_opening :
    (∀ x ∈ [(overdub 7 7 none, 0, 7, 250), (pastBoundary 0, 0, 0, 250), (pastBoundary 80, 80, 0, 330)],
      meets 0 (.passClose 0 0x01 0x00 0x01) x.1 (fun s => s.inHold = false ∧ inputArg 0x00 = some 0 ∧
        quantizeArg 0x01 = some .beat ∧ s.pendingSame 0 (.passClose 0) = none ∧
        s.pass 0 = some { writing 0 .opening 0 with writePos := x.2.2.2 } ∧ s.cyc.state = .running ∧
        s.cyc.pos = some x.2.1 ∧ s.cyc.len = some 250 ∧ x.2.1 ≤ (s.station 0).grace ∧
        (s.track 0).anchor = some x.2.2.1 ∧ (s.layer 0).map (·.written) = some x.2.2.2)) ∧
      (overdub 7 7 none).cyc.count = 7 ∧ (pastBoundary 80).cyc.count = 1 ∧
      slotPage ([((0 : Nat), (10 : Page))].filter fun c => slotKept 0 250 250 c.1) 0 = some 10 := by decide +kernel

/-- R86: the carried close keeps the pass open; past the boundary the layer is trimmed to the whole cycle. -/
theorem test_openPass_close :
    ((served (.passClose 0 0x01 0x00 0x01) (overdub 7 7 none)).pass 0).map (·.close) = some (some 250) ∧
      ((served (.passClose 0 0x01 0x00 0x01) (pastBoundary 0)).pass 0).map (·.state) = some .spillWait ∧
      ((served (.passClose 0 0x01 0x00 0x01) (pastBoundary 80)).layer 0).map (fun l => (l.state, l.written, l.length)) =
        some (.live, 250, some 250) := by decide +kernel

/-- A FIXED pass on T0 whose layer L3 holds `written` of its 250 blocks, at the boundary after it. -/
def recorded (written : Nat) (p : Pass) : State :=
  ((band.withLayer 3 (some { liveLayer 0 250 3 [(0, 13)] with state := .recording, written := written })).withPass 0
    (some p)).withMem (writeBlock [] 13 0 (List.replicate 48 480000))

/-- A close of a FIXED pass that backfills, of one that does not, of one that waits for its spill and of one that is cut. -/
theorem witness_PassCloseFixesTheCycle_fixed :
    ∀ x ∈ [(100, { writing 0 .fixed 3 with backfill := 9 }), (100, writing 0 .fixed 3),
        (250, { writing 0 .fixed 3 with state := .spillWait }), (100, { writing 0 .fixed 3 with cut := some .stop, backfill := 9 })],
      meets 0 (.passClose 0 0x01 0x00 0x00) (recorded x.1 x.2) (fun s => s.inHold = false ∧
        quantizeArg 0x00 = some .now ∧ s.pendingSame 0 (.passClose 0) = none ∧ s.pass 0 = some x.2 ∧
        s.timing 0 (.passClose 0) .now = .atOnce 0 ∧ (s.layer 3).map (·.written) = some x.1) := by decide +kernel

/-- R82, R89: the cut CLOSED waits for its backfill. -/
theorem test_fixedPass_close :
    ((served (.passClose 0 0x01 0x00 0x00) (recorded 100 { writing 0 .fixed 3 with backfill := 9 })).pass 0).map (·.cut) =
        some (some .closed) ∧
      ((served (.passClose 0 0x01 0x00 0x00) (recorded 100 (writing 0 .fixed 3))).layer 3).map (·.state) = some .live := by
  decide +kernel

theorem witness_PassEndsWithItsSpill :
    ((recorded 250 (writing 0 .fixed 3)).stopped = false ∧
        (recorded 250 (writing 0 .fixed 3)).pass 0 = some (writing 0 .fixed 3) ∧
        ((recorded 250 (writing 0 .fixed 3)).layer 3).map (fun l => decide (l.length = some l.written)) = some true ∧
        ((recorded 249 (writing 0 .fixed 3)).layer 3).map (fun l => decide (l.length = some l.written)) = some false) ∧
      (recorded 250 { writing 0 .fixed 3 with state := .spillWait, spillReady := true }).pass 0 =
        some { writing 0 .fixed 3 with state := .spillWait, spillReady := true } ∧
      slotPage [(0, 13)] ((writing 0 .fixed 3).start / 256) = some 13 := by decide +kernel

/-- R84: the pass waits for its spill; R83: the spill of silence is blended into the head block. -/
theorem test_passEnd :
    ((after (.passReachesEnd 0) (recorded 250 (writing 0 .fixed 3))).pass 0).map (·.state) = some .spillWait ∧
      (after (.spillBlend 0) (recorded 250 { writing 0 .fixed 3 with state := .spillWait, spillReady := true })).pass 0 =
        none ∧
      (readBlock (after (.spillBlend 0) (recorded 250
        { writing 0 .fixed 3 with state := .spillWait, spillReady := true })).mem 13 0).getD 0 0 = 10000 := by
  decide +kernel

/-- R193: three samples as their bytes, the least significant first. -/
theorem test_storedSampleBytes :
    sampleBytes (-1) = [0xFF, 0xFF, 0xFF] ∧ sampleBytes (-8388608) = [0x00, 0x00, 0x80] ∧
      sampleBytes 8388607 = [0xFF, 0xFF, 0x7F] ∧ sampleBytes 66051 = [0x03, 0x02, 0x01] := by decide +kernel

/-- Samples at and inside the ends of their range, a block at the last place of a page, and a return packet. -/
theorem witness_StoredBlocksAreExact_bytes :
    (∀ x ∈ [(-1 : Int), -8388608, 8388607], -8388608 ≤ x ∧ x ≤ 8388607) ∧
      (List.replicate 48 (-1 : Int)).length = 48 ∧ (255 : Nat) < 256 ∧
      (ReturnBlock.mk .b 77 (List.replicate 48 (-1))).samples.length = 48 := by decide +kernel

/-- A stored block, and a take memory sample at each end of its range. -/
theorem witness_StoredBlocksAreExact :
    (List.replicate 48 (-8388608 : Int)).length = 48 ∧
      (∀ x ∈ List.replicate 48 (-8388608 : Int), -8388608 ≤ x ∧ x ≤ 8388607) ∧
      (List.replicate 48 (8388607 : Int))[47]? = some 8388607 := by decide +kernel

/-- A cut pass with 9, 8 and no copies to make. -/
theorem witness_CutPassEndsAfterItsBackfill :
    (∀ n ∈ [9, 8, 0], (recorded 100 { writing 0 .fixed 3 with cut := some .stop, backfill := n }).stopped = false ∧
      (recorded 100 { writing 0 .fixed 3 with cut := some .stop, backfill := n }).settled = true ∧
      (recorded 100 { writing 0 .fixed 3 with cut := some .stop, backfill := n }).triggerOverdue = false ∧
      (recorded 100 { writing 0 .fixed 3 with cut := some .stop, backfill := n }).bne.active = none ∧
      (recorded 100 { writing 0 .fixed 3 with cut := some .stop, backfill := n }).pass 0 =
        some { writing 0 .fixed 3 with cut := some .stop, backfill := n } ∧
      (∀ j, j ≠ 0 → (recorded 100 { writing 0 .fixed 3 with cut := some .stop, backfill := n }).pass j = none) ∧
      ((recorded 100 { writing 0 .fixed 3 with cut := some .stop, backfill := n }).layer 3).map (·.written) = some 100) ∧
      slotPage [(0, 13)] (0 / 256) = some 13 ∧ slotPage [(0, 13)] ((0 + 100 - 1) % 250 / 256) = some 13 := by decide +kernel

/-- The same with no block and with one block written. -/
theorem witness_CutPassEndsAfterItsBackfill_short :
    ∀ n ∈ [0, 1], (recorded n { writing 0 .fixed 3 with cut := some .stop, backfill := 8 }).settled = true ∧
      (recorded n { writing 0 .fixed 3 with cut := some .stop, backfill := 8 }).pass 0 =
        some { writing 0 .fixed 3 with cut := some .stop, backfill := 8 } ∧
      ((recorded n { writing 0 .fixed 3 with cut := some .stop, backfill := 8 }).layer 3).map (·.written) = some n := by
  decide +kernel

/-- R89, R111: the cut ends at the boundary of the period in which its copies end, and its layer is a fourth candidate there. -/
theorem test_cutBackfill_boundary :
    (after (.blockBoundary []) (recorded 100 { writing 0 .fixed 3 with cut := some .stop, backfill := 8 })).pass 0 = none ∧
      (after (.blockBoundary [])
        (recorded 100 { writing 0 .fixed 3 with cut := some .stop, backfill := 8 })).mxe.lastMix.candidates = 4 ∧
      (after (.blockBoundary [])
        (recorded 100 { writing 0 .fixed 3 with cut := some .stop, backfill := 9 })).mxe.lastMix.candidates = 3 := by
  decide +kernel

/-- R88: the head block of a cut takes the fade-in. -/
theorem test_cutBackfillEnd :
    (readBlock (after (.cutBackfillEnd 0) (recorded 100 { writing 0 .fixed 3 with cut := some .stop })).mem 13 0).getD 0 0 =
        10000 ∧
      ((after (.cutBackfillEnd 0) (recorded 100 { writing 0 .fixed 3 with cut := some .stop })).layer 3).map (·.state) =
        some .live := by decide +kernel

theorem witness_DueEntryIsExecuted :
    (queued [muteEntry 0 1000 0, muteEntry 1 1001 1]).stopped = false ∧
      (queued [muteEntry 0 1000 0, muteEntry 1 1001 1]).endSettled = true ∧
      (queued [muteEntry 0 1000 0, muteEntry 1 1001 1]).startDue = false ∧
      (queued [muteEntry 0 1000 0, muteEntry 1 1001 1]).aqu.queue = muteEntry 0 1000 0 :: [muteEntry 1 1001 1] ∧
      (muteEntry 0 1000 0).due = (queued []).cyc.block ∧
      ∀ x ∈ [muteEntry 1 1001 1], x.due ≠ (queued []).cyc.block := by decide +kernel

/-- An entry of station 0 with another action, due in block 1 000. -/
def actionEntry (a : Action) (passLayer : Option (LayerId × Nat)) : Entry :=
  { muteEntry 0 1000 0 with action := a, passLayer := passLayer }

/-- Two entries due in one block; a stop with an entry behind it. -/
theorem witness_DueEntryIsExecuted_several :
    ∀ q ∈ [[muteEntry 0 1000 0, muteEntry 1 1000 1, muteEntry 2 1001 2],
        [actionEntry .transportStop none, muteEntry 1 1000 1]],
      (queued q).stopped = false ∧ (queued q).endSettled = true ∧ (queued q).startDue = false ∧
        (queued q).advanceDue = false ∧ (queued q).aqu.queue = q ∧ (queued q).cyc.block = 1000 ∧
        (queued q).cyc.state = .running := by decide +kernel

/-- A close of a pass that is not there, of the pass it names, and of a pass with another serial. -/
theorem witness_DueEntryIsExecuted_close :
    (queued [actionEntry (.passClose 0) (some (3, 3))]).pass 0 = none ∧
      ((recorded 100 (writing 0 .fixed 3)).withAqu ⟨[actionEntry (.passClose 0) (some (3, 3))], 9, 0⟩).endSettled = true ∧
      (recorded 100 (writing 0 .fixed 3)).pass 0 = some (writing 0 .fixed 3) ∧
      ((recorded 100 (writing 0 .fixed 3)).layer 3).map (·.serial) = some 3 ∧ (3 : Nat) ≠ 9 := by decide +kernel

/-- R103, R105: the stop ends the queue and cuts before it is answered; a close of another pass is answered NO_PASS. -/
theorem test_dueEntries :
    ((after .dueEntryExecute (queued [actionEntry .transportStop none, muteEntry 1 1000 1])).link 0).replies.map (·.code) =
        [.cancelled, .done] ∧
      answerOf 0 (after .dueEntryExecute ((recorded 100 (writing 0 .fixed 3)).withAqu
        ⟨[actionEntry (.passClose 0) (some (3, 9))], 9, 0⟩)) = some .noPass ∧
      (after .dueEntryExecute ((recorded 100 (writing 0 .fixed 3)).withAqu
        ⟨[actionEntry (.passClose 0) (some (3, 3))], 9, 0⟩)).pass 0 = none := by decide +kernel

theorem test_dueEntry :
    ((after .dueEntryExecute (queued [muteEntry 0 1000 0, muteEntry 1 1001 1])).track 0).mute = true ∧
      ((after .dueEntryExecute (queued [muteEntry 0 1000 0, muteEntry 1 1001 1])).track 1).mute = false ∧
      answerOf 0 (after .dueEntryExecute (queued [muteEntry 0 1000 0])) = some .done := by decide +kernel

/-- The scan with its last stroke in flight. -/
def lastStroke : State :=
  ({ scanning 52 with bne.active := some { scan with done := 7, stroke := some (7, 52) } } : State)

theorem witness_StrokeOfAScanCompletes :
    (∀ c ∈ [63, 64], (scanning c).stopped = false ∧ (scanning c).endSettled = true ∧
        (scanning c).bne.active = some scan ∧ (scanning c).tmc.credit = c ∧
        ((scanning c).track scan.track).mult = some 1 ∧ (scanning c).cyc.len = some 250) ∧
      scan.mode = .scan ∧ scan.dest = none ∧ scan.stroke = some (0, 64) ∧ scan.suspendPending = false ∧
      scan.done + 1 ≠ scan.total ∧
      lastStroke.endSettled = true ∧ lastStroke.bne.active = some { scan with done := 7, stroke := some (7, 52) } ∧
      52 ≤ lastStroke.tmc.credit ∧ 7 + 1 = scan.total ∧ scan.owed = true := by decide +kernel

/-- A COMMIT of T0's bottom two layers into L3 with its stroke `k` in flight. -/
def commit (k : Nat) (suspend : Bool) : Bounce :=
  { scan with mode := .commit, dest := some 3, done := k, stroke := some (k, 3 * min 32 (250 - 32 * k)),
              suspendPending := suspend }

/-- The band with that commit, the reserved pages `reserved` and the pages `map` in L3. -/
def committing (k : Nat) (suspend : Bool) (reserved : List Page) (map : List (Nat × Page)) : State :=
  (((sourced.withLayer 3 (some { liveLayer 0 250 3 map with state := .forming, input := none, written := 32 * k })).withBne
    { Bne.reset with engine := .committing, active := some (commit k suspend), buffer := [] }).withPgp
    { smallPool with reserved := reserved }).withTmc { Tmc.reset with credit := 96 }

/-- The first stroke of a commit, whose slot has no page, a later one, one with a suspension pending, and the last. -/
theorem witness_StrokeOfAScanCompletes_commit :
    ∀ x ∈ [(0, false, [(50 : Page), 60], ([] : List (Nat × Page))), (1, false, [], [(0, 50)]), (1, true, [], [(0, 50)]),
        (7, false, [], [(0, 50)])],
      (committing x.1 x.2.1 x.2.2.1 x.2.2.2).stopped = false ∧ (committing x.1 x.2.1 x.2.2.1 x.2.2.2).endSettled = true ∧
      (committing x.1 x.2.1 x.2.2.1 x.2.2.2).bne.active = some (commit x.1 x.2.1) ∧
      ((committing x.1 x.2.1 x.2.2.1 x.2.2.2).track 0).mult = some 1 ∧
      (committing x.1 x.2.1 x.2.2.1 x.2.2.2).cyc.len = some 250 ∧
      ((committing x.1 x.2.1 x.2.2.1 x.2.2.2).layer 3).map (·.map) = some x.2.2.2 ∧
      3 * min 32 (250 - 32 * x.1) ≤ (committing x.1 x.2.1 x.2.2.1 x.2.2.2).tmc.credit ∧ 32 * x.1 < 1 * 250 ∧
      (slotPage x.2.2.2 (32 * x.1 / 256) = none ∧ x.2.2.1 = [50, 60] ∨ slotPage x.2.2.2 (32 * x.1 / 256) = some 50) ∧
      x.2.2.1.Pairwise (· < ·) ∧ (x.1 = 7 ↔ x.1 + 1 = (commit x.1 x.2.1).total) ∧
      ((committing x.1 x.2.1 x.2.2.1 x.2.2.2).track 0).stack = [0, 1] ++ [2] ∧
      ∀ id ∈ [(0 : LayerId), 1], ((committing x.1 x.2.1 x.2.2.1 x.2.2.2).layer id).any
        (fun l => l.track = 0 ∧ l.pinned = false) := by decide +kernel

/-- A scan with a suspension pending. -/
def suspending : State :=
  { scanning 64 with bne.active := some { scan with suspendPending := true } }

/-- Undo of a source of a scan and of a commit. -/
theorem witness_StrokeOfAScanCompletes_abort :
    (suspending.endSettled = true ∧ suspending.bne.active = some { scan with suspendPending := true } ∧
        scan.done + 1 ≠ scan.total ∧ 64 ≤ suspending.tmc.credit) ∧
      ∀ s ∈ [(scanning 0).withTrack 0 { band.track 0 with stack := [0, 1] },
          (committing 1 false [60] [(0, 50)]).withTrack 0 { band.track 0 with stack := [0, 1] }],
        meets 0 (.layerUndo 0 0x01 0x00 0x00) s (fun s => s.inHold = false ∧ s.pendingSame 0 (.layerUndo 0) = none ∧
          s.newestPass 0 = none ∧ (s.track 0).stack = [0] ++ [1] ∧ (s.layer 1).map (·.track) = some 0 ∧
          (s.track 0).redo.length < 12 ∧ s.lys.parks < 4294967295 ∧ s.bne.active.isSome ∧ s.isSource 1 = true ∧
          (3 : LayerId) ∉ (s.track 0).stack ++ (s.track 0).redo) := by decide +kernel

/-- R61, R138, R36, R142, R141: the saturated sum of frame a stands in the destination; the last stroke inserts it; a
suspension; an abort returns the destination's and the reserved pages. -/
theorem test_commit :
    (readBlock (after .bounceStrokeComplete (committing 0 false [50] [])).mem 50 0).getD 0 0 = 8388607 ∧
      ((after .bounceStrokeComplete (committing 7 false [] [(0, 50)])).track 0).stack = [3, 2] ∧
      ((after .bounceStrokeComplete (committing 7 false [] [(0, 50)])).layer 3).map (·.state) = some .live ∧
      (after .bounceStrokeComplete (committing 1 true [] [(0, 50)])).bne.engine = .suspended ∧
      (after .bounceStrokeComplete suspending).bne.engine = .suspended ∧
      (served (.layerUndo 0 0x01 0x00 0x00) ((committing 1 false [60] [(0, 50)]).withTrack 0
        { band.track 0 with stack := [0, 1] })).pgp.free = smallPool.free ++ [50, 60] := by decide +kernel

/-- R137: a stroke completes as soon as the credit covers it; the last one ends the scan. -/
theorem test_stroke :
    ((after .bounceStrokeComplete (scanning 64)).bne.active.map (·.stroke)) = some (some (1, 64)) ∧
      (after .bounceStrokeComplete (scanning 64)).tmc.credit = 0 ∧
      (after .bounceStrokeComplete (scanning 63)).bne.active = some scan ∧
      (after .bounceStrokeComplete lastStroke).bne.engine = .idle ∧
      answerOf 1 (after .bounceStrokeComplete lastStroke) = some .done := by decide +kernel

/-- The band with bounces in the waiting list. -/
def waitingList (w : List Waiting) : State := band.withBne { Bne.reset with waiting := w, buffer := [] }

theorem witness_WaitingBounceAdvances :
    (waitingList [⟨0, 2, .scan, 1, 0x44⟩]).stopped = false ∧ (waitingList [⟨0, 2, .scan, 1, 0x44⟩]).endSettled = true ∧
      (waitingList [⟨0, 2, .scan, 1, 0x44⟩]).bne.engine = .idle ∧
      (waitingList [⟨0, 2, .scan, 1, 0x44⟩]).tmc.mem = .active ∧
      (waitingList [⟨0, 2, .scan, 1, 0x44⟩]).bne.waiting = [⟨0, 2, .scan, 1, 0x44⟩] ∧
      (waitingList []).bounceCheck 5 2 = some .wrongState ∧ (scanning 0).bne.engine ≠ .idle ∧
      ((waitingList []).track 0).state = .looping ∧ ((waitingList []).track 0).stack = [0, 1] ++ [2] ∧
      (∀ id ∈ [(0 : LayerId), 1], ((waitingList []).layer id).any (fun x => x.state = .live ∧ x.pinned = false)) ∧
      ((waitingList []).track 0).mult = some 1 ∧ (waitingList []).cyc.len = some 250 := by decide +kernel

/-- The checks of R134: a stack of three, a pinned layer, no record left, and a pool that is one page short. -/
theorem witness_WaitingBounceAdvances_checks :
    (band.track 5).state ≠ .looping ∧ (band.track 0).state = .looping ∧ (band.track 0).stack.length = 3 ∧
      (∀ id ∈ [(0 : LayerId), 1], (band.layer id).any (fun x => x.state = .live ∧ x.pinned = false)) ∧
      ((band.withLayer 1 (some { liveLayer 0 250 1 [] with pinned := true })).layer 1).any (·.pinned) = true ∧
      ((band.withLayer 1 (some { liveLayer 0 250 1 [] with state := .recording })).layer 1).any
        (fun x => x.state = .live) = false ∧
      (allLayers.foldl (fun s id => s.withLayer id (some (liveLayer 0 250 0 []))) band).freeRecord = none ∧
      (allLayers.foldl (fun s id => s.withLayer id (some (liveLayer 0 250 0 []))) band).victim = none ∧
      (allLayers.foldl (fun s id => s.withLayer id (some (liveLayer 0 250 0 []))) band).bounceCheck 0 2 = none ∧
      (band.withCyc (playing 3075 3 7 3 1000)).bounceCheck 0 3 = none ∧
      (band.withCyc (playing 3075 3 7 3 1000)).freeRecord ≠ none ∧
      (band.withCyc (playing 3075 3 7 3 1000)).freeCount +
        (band.withCyc (playing 3075 3 7 3 1000)).reclaimable < (1 * 3075 + 255) / 256 := by decide +kernel

/-- R134: a pinned source, and a source that is not LIVE, which comes first. -/
theorem test_bounceCheck :
    (band.withLayer 1 (some { liveLayer 0 250 1 [] with pinned := true })).bounceCheck 0 2 = some .pinned ∧
      ((band.withLayer 1 (some { liveLayer 0 250 1 [] with pinned := true })).withLayer 0
        (some { liveLayer 0 250 0 [] with state := .recording })).bounceCheck 0 2 = some .wrongState ∧
      band.bounceCheck 0 4 = some .wrongState := by decide +kernel

/-- R135: an entry that fails its checks is answered, and the next one starts in the same block. -/
theorem test_waiting :
    answerOf 3 (after .bounceQueueAdvance (waitingList [⟨5, 2, .scan, 3, 0x45⟩, ⟨0, 2, .scan, 1, 0x44⟩])) =
        some .wrongState ∧
      (after .bounceQueueAdvance (waitingList [⟨5, 2, .scan, 3, 0x45⟩, ⟨0, 2, .scan, 1, 0x44⟩])).bne.active =
        some scan := by decide +kernel

/-! ## Witnesses: hold and supply -/

/-- A hub with a trigger of the supply watch. -/
def triggered (m : MemState) : State :=
  band.withTmc { Tmc.reset with mem := m, trigger := some (.scorch, 1000) }

theorem witness_TriggerEntersHold :
    (∀ m ∈ [MemState.active, .retaining], (triggered m).stopped = false ∧ (triggered m).settled = true ∧
      (triggered m).strokeDue = false ∧ (triggered m).tmc.trigger = some (.scorch, 1000) ∧ (triggered m).tmc.mem = m) ∧
      band.cyc.state = .running := by decide +kernel

theorem test_holdEntry :
    (after .holdEntry (triggered .active)).tmc.holdCause = some .scorch ∧
      (after .holdEntry (triggered .active)).tmc.holdStation = none ∧
      (after .holdEntry (triggered .active)).cyc.state = .paused ∧
      (after .holdEntry (triggered .retaining)).tmc.mem = .retaining := by decide +kernel

/-- A hub that drains since block `h`. -/
def draining (h : Nat) : State :=
  rested.withTmc { Tmc.reset with mem := .draining, holdCause := some .request, holdEntry := some h }

theorem witness_DrainEndsInRetention :
    (∀ h ∈ [999, 1000], (draining h).stopped = false ∧ (draining h).endSettled = true ∧ (draining h).strokeDue = false ∧
      (draining h).tmc.mem = .draining ∧ (draining h).tmc.holdEntry = some h ∧ (draining h).cyc.block = 1000 ∧
      (∀ i, (draining h).pass i = none) ∧ (draining h).strokeInFlight = false) := by decide +kernel

/-- A pass whose backfill ends in block 1000 is open until that period ends. -/
theorem witness_DrainEndsInRetention_ended :
    ((draining 999).withInput 0 { InputRec.reset with endedHere := true }).endSettled = true ∧
      (((draining 999).withInput 0 { InputRec.reset with endedHere := true }).input 0).endedHere = true := by decide +kernel

/-- R155, R89: a cut backfill that ends in H + 2 is accounted in it, and H + 3 is the first RETAINING block. -/
theorem test_drain_backfill :
    let cutting : State := ((draining 998).withLayer 3 (some
      { liveLayer 0 250 3 [(0, 10)] with state := .recording })).withPass 0 (some
        { writing 0 .fixed 3 with cut := some .hold, backfill := 5, snap := 5 })
    let ended := after (.cutBackfillEnd 0) cutting
    (ended.pass 0) = none ∧ (after .drainComplete ended).tmc.mem = .draining ∧
      (after (.blockBoundary []) ended).tmc.account.writes = 1 ∧
      (after .drainComplete (after (.blockBoundary []) ended)).tmc.drained = 3 := by decide +kernel

/-- R155: not in the hold-entry block itself. -/
theorem test_drain :
    (after .drainComplete (draining 1000)).tmc.mem = .draining ∧
      (after .drainComplete (draining 998)).tmc.mem = .retaining ∧
      (after .drainComplete (draining 998)).tmc.drained = 2 := by decide +kernel

/-- A hub that wakes until block `n`, with or without a suspended scan. -/
def waking (n : Nat) (bne : Bne) : State :=
  (rested.withBne bne).withTmc
    { Tmc.reset with mem := .waking, holdCause := some .request, holdEntry := some 900, wakeCause := some .resume,
                     wakeEnd := some n }

theorem witness_WakeEndsTheHold :
    (∀ n ∈ [1000, 1001], (waking n Bne.reset).stopped = false ∧ (waking n Bne.reset).endSettled = true ∧
        (waking n Bne.reset).tmc.mem = .waking ∧ (waking n Bne.reset).tmc.wakeCause = some .resume ∧
        (waking n Bne.reset).tmc.wakeEnd = some n ∧ (waking n Bne.reset).cyc.block = 1000 ∧
        (waking n Bne.reset).bne.engine ≠ .suspended) ∧
      (waking 1000 { Bne.reset with engine := .suspended, active := some { scan with stroke := none } }).bne.engine =
        .suspended ∧
      (rested.track scan.track).mult = some 1 ∧ rested.cyc.len = some 250 ∧ rested.cyc.state = .paused := by
  decide +kernel

/-- A wake whose marks station 0 hears, without and with a stop of the block known. -/
theorem witness_WakeEndsTheHold_marks :
    (hearing (waking 1000 Bne.reset)).endSettled = true ∧ (hearing (waking 1000 Bne.reset)).cyc.state = .paused ∧
      (hearing (waking 1000 Bne.reset)).cyc.len = some 250 ∧ (hearing (waking 1000 Bne.reset)).cyc.beats = some 2 ∧
      (hearing (waking 1000 Bne.reset)).hears 0 .beatMark 3 = true ∧
      (hearing (waking 1000 Bne.reset)).hears 0 .cycleMark 3 = true ∧
      ((hearing (waking 1000 Bne.reset)).withTmc { (waking 1000 Bne.reset).tmc with
        trigger := some (.scorch, 999) }).endSettled = true := by decide +kernel

/-- R158, R20: the events of a wake. -/
theorem test_wake_marks :
    ((after .wakeEnd (hearing (waking 1000 Bne.reset))).link 0).events.map (·.body) =
        [.holdActive .resume .running, .beatMark 0, .cycleMark 250 2] := by decide +kernel

/-- R158, R143, R20: the timeline restarts and the scan's stroke is in flight again. -/
theorem test_wake :
    (after .wakeEnd (waking 1000 { Bne.reset with engine := .suspended, active := some { scan with stroke := none } })).bne =
        { Bne.reset with engine := .scanning, active := some scan } ∧
      (after .wakeEnd (waking 1000 Bne.reset)).cyc.state = .running ∧
      (after .wakeEnd (waking 1001 Bne.reset)).tmc.mem = .waking := by decide +kernel

/-- A hub in the reading's period. -/
def phase99 (u : Supply) (h : Thermal) : State :=
  { hub with smn := { Smn.reset with phase := 99, supply := u, thermal := h } }

/-- The receivers take the states before the mix. -/
def atOnce : HandOff := ⟨false, false, false, false⟩

theorem witness_ReadingMovesTheStates :
    (phase99 .normal .cool).stopped = false ∧ (phase99 .normal .cool).readingDue = true ∧ 3300 ≤ 3300 ∧
      (phase99 .normal .cool).smn.readOwed = false ∧ (phase99 .normal .cool).smn.lowest = none ∧
      (phase99 .normal .cool).smn.highest = none := by decide +kernel

/-- A reading that changes both states: station 0 hears both, station 1, in RUN, the urgent one alone. -/
theorem witness_ReadingMovesTheStates_events :
    (hearing (phase99 .thrift .cool)).readingDue = true ∧ (hearing (phase99 .thrift .cool)).hears 0 .supplyState 2 = true ∧
      (hearing (phase99 .thrift .cool)).hears 0 .thermalState 2 = true ∧ (phase99 .thrift .cool).linkRuns 1 = true ∧
      supplyAfter .thrift 5980 6600 6000 = .critical ∧ thermalAfter .cool 86 = .hot := by decide +kernel

/-- R164, R166: the order the command gives; what comes late is held from the boundary on. -/
theorem test_reading_events :
    let t := after (.supplyReading 5980 (some 86) ⟨true, false, true, true⟩) (hearing (phase99 .thrift .cool))
    (t.link 0).events.map (·.body) =
        [.thermalState .hot .cool 86 false, .supplyState .critical .thrift 5980 6600 6000 false] ∧
      (t.link 1).events.length = 1 ∧ t.mxe.supply = .normal ∧ t.mxe.thermal = .hot ∧ t.tmc.refresh = 2 ∧
      (after (.blockBoundary []) t).mxe.supply = .critical := by decide +kernel

/-- Reading 7 of section 9.9.1, and an open temperature input (R161). -/
theorem test_reading :
    (after (.supplyReading 5980 (some 40) atOnce) (phase99 .thrift .cool)).smn.supply = .critical ∧
      (after (.supplyReading 5980 (some 40) atOnce) (phase99 .thrift .cool)).tmc.trigger = some (.critical, 0) ∧
      (after (.supplyReading 7200 none atOnce) (phase99 .normal .cool)).smn.temperature = some 125 ∧
      (after (.supplyReading 7200 none atOnce) (phase99 .normal .cool)).tmc.trigger = some (.scorch, 0) := by
  decide +kernel

/-- A hub stopped by a brownout, in phase `n` of the battery measurement. -/
def halted (n : Nat) : State := { State.reset with stopped := true, smn := { Smn.reset with phase := n } }

theorem witness_BrownoutStopsAndResetRestarts :
    (phase99 .normal .cool).stopped = false ∧ (phase99 .normal .cool).readingDue = true ∧ 3299 < 3300 ∧
      (halted 99).stopped = true ∧ (halted 99).readingDue = true ∧ (halted 98).readingDue = false ∧ (3300 : Nat) ≤ 3300 ∧
      Instr.tap 0 0x00 0x00 ≠ .powerOnReset := by decide +kernel

/-- R168: 3 299 mV stops the hub, 3 300 mV restarts it. -/
theorem test_brownout :
    (after (.supplyReading 3299 (some 40) atOnce) (phase99 .normal .cool)).stopped = true ∧
      (after (.brownoutEnd 3299) (halted 99)).stopped = true ∧ (after (.brownoutEnd 3300) (halted 98)).stopped = true ∧
      (after (.brownoutEnd 3300) (halted 99)).stopped = false ∧
      (after (.blockBoundary []) (halted 98)).smn.phase = 99 ∧
      (after .powerOnReset band).cyc = Cyc.reset := by decide +kernel

/-! ## Witnesses: the links -/

/-- The hub of section 4.1.1 again; d = 0, 3, 4, 127 and 128 from the stamp 232 of block 1 000. -/
theorem witness_InputBlockIsFiledByStamp :
    guitar.stopped = false ∧ (guitar.link 2).state = .run ∧ (guitar.link 2).assembly = .outside ∧
      (List.replicate 144 (0 : Byte)).length = 144 ∧
      ((232 : Byte).toNat + 256 - guitar.cyc.block % 256) % 256 = 0 ∧
      ((235 : Byte).toNat + 256 - guitar.cyc.block % 256) % 256 = 3 ∧
      ((236 : Byte).toNat + 256 - guitar.cyc.block % 256) % 256 = 4 ∧
      ((103 : Byte).toNat + 256 - guitar.cyc.block % 256) % 256 = 127 ∧
      ((104 : Byte).toNat + 256 - guitar.cyc.block % 256) % 256 = 128 := by decide +kernel

/-- The arrivals of section 4.1.1: EARLY, LATE and a retry. -/
theorem test_inputBlock :
    ((after (.inputBlock 2 240 (List.replicate 144 0)) guitar).input 2).early = 1 ∧
      ((after (.inputBlock 2 231 (List.replicate 144 0)) guitar).input 2).late = 1 ∧
      ((after (.inputBlock 2 232 (List.replicate 144 0)) guitar).input 2).replaced = 1 ∧
      ((after (.inputBlock 2 235 (List.replicate 144 0)) guitar).input 2).stored = 1 := by decide +kernel

/-- A link with `q` requests and `n` reception replies. -/
def loaded (q n : Nat) : State :=
  hub.withLink 1 { LinkRec.reset with
    state := .run, requests := List.replicate q ⟨[0x20, 0x00], false⟩,
    replies := List.replicate n ⟨0x20, some 0x00, false, .busy, 0, .none, true⟩ }

theorem witness_HubPacketsAreReceived :
    (∀ x ∈ [(3, 0), (4, 2), (4, 3)], (loaded x.1 x.2).stopped = false ∧ ((loaded x.1 x.2).link 1).state = .run ∧
      ((loaded x.1 x.2).link 1).assembly = .outside ∧ ((loaded x.1 x.2).link 1).requests.length = x.1 ∧
      (((loaded x.1 x.2).link 1).replies.filter (·.reception)).length = x.2) ∧
      (List.replicate 262 (0x02 : Byte)).length ≤ 262 ∧ ([] : List Byte).head? ≠ some 0x01 ∧
      ([0x03] : List Byte).head? ≠ some 0x02 ∧ (List.replicate 144 (0 : Byte)).length ≠ 145 := by decide +kernel

/-- A link in the midst of a hub packet. -/
def assembling (bytes : List Byte) (overlong : Bool) : State :=
  hub.withLink 1 { LinkRec.reset with state := .run, assembly := .hub bytes overlong }

/-- Packets begun: of 262 and 263 bytes after the address, a request, an input block, one of no known type. -/
theorem witness_HubPacketsAreReceived_bytes :
    (∀ x ∈ [(List.replicate 262 (0x03 : Byte), false), (List.replicate 263 0x03, false), ([0x01, 0x20, 0x00], false),
        (0x01 :: List.replicate 262 0x20, true), (0x02 :: 0x05 :: List.replicate 144 0x00, false), ([], false)],
      (assembling x.1 x.2).stopped = false ∧ ((assembling x.1 x.2).link 1).state = .run ∧
        ((assembling x.1 x.2).link 1).assembly = .hub x.1 x.2 ∧ ((assembling x.1 x.2).link 1).requests.length < 4) ∧
      hub.stopped = false ∧ (hub.link 1).state = .run ∧ (hub.link 1).assembly = .outside ∧
      ([0x03] : List Byte).length + [(0x04 : Byte)].length ≤ 263 := by decide +kernel

/-- R170, R175: a READ_HUB request arriving byte by byte, and a packet grown beyond 264 bytes. -/
theorem test_hubPacket_bytes :
    ((after (.forwardEnd 1) ([0x00, 0x01, 0x20, 0x07].foldl (fun s b => after (.forwardDataByte 1 b) s) hub)).link
        1).requests = [⟨[0x20, 0x07], false⟩] ∧
      ((after (.forwardDataByte 1 0x03) (assembling (List.replicate 263 0x03) false)).link 1).assembly =
        .hub (List.replicate 263 0x03) true ∧
      ((after (.forwardFaultEnd 1) (assembling [0x01] false)).link 1).station.faultEnded = 1 := by decide +kernel

/-- R176: the fifth request is answered BUSY, unless three reception replies wait. -/
theorem test_hubPackets :
    ((after (.requestPacket 1 [0x20, 0x00]) (loaded 3 0)).link 1).requests.length = 4 ∧
      ((after (.requestPacket 1 [0x20, 0x00]) (loaded 4 2)).link 1).replies.length = 3 ∧
      ((after (.requestPacket 1 [0x20, 0x00]) (loaded 4 3)).link 1).station.unanswered = 1 ∧
      answerOf 1 (after (.unknownPacket 1 [0x03]) (loaded 0 0)) = some .malformed ∧
      ((after (.hubPacketFaultEnd 1) (loaded 0 0)).link 1).station.faultEnded = 1 := by decide +kernel

theorem witness_LinkLossEmptiesTheLink :
    (∀ s ∈ [band, queued [muteEntry 0 1243 0], recording, hub.withStation 1 { Settings.reset with subs := [.linkState] }],
      s.stopped = false ∧ s.settled = true ∧ (s.link 0).state = .run ∧ (s.link 0).assembly = .outside) ∧
      recording.pass 0 ≠ none ∧
      (hub.withStation 1 { Settings.reset with subs := [.linkState] }).hears 1 .linkState 6 = true := by decide +kernel

/-- R171: an END outside a packet is a STRAY_END, which the other stations hear of. -/
theorem test_strayEnd :
    ((after (.forwardEnd 0) (hub.withStation 1 { Settings.reset with subs := [.linkState] })).link 0).counters.strayEnd = 1 ∧
      ((after (.forwardEnd 0) (hub.withStation 1 { Settings.reset with subs := [.linkState] })).link 1).events.map
        (·.body) = [.linkState 0 .recover (some .strayEnd)] := by decide +kernel

/-- R171, R107: the count of the cause, the entries of the station gone, RECOVER for 40 character times. -/
theorem test_linkLoss :
    ((after (.linkError 0 .badCode 7) (queued [muteEntry 0 1243 0])).link 0).counters.badCode = 1 ∧
      (after (.linkError 0 .badCode 7) (queued [muteEntry 0 1243 0])).aqu.queue = [] ∧
      ((after (.linkSilence 0 7) (queued [])).link 0).recoverEnd = some 2000047 := by decide +kernel

/-- A hub whose link 1 is in another state. -/
def linkIn (x : LinkState) (n : Nat) : State :=
  hub.withLink 1 { LinkRec.reset with state := x, bringUp := n, recoverEnd := if x = .recover then some 40 else none }

theorem witness_LinkComesUpInOrder :
    (linkIn .recover 0).stopped = false ∧ ((linkIn .recover 0).link 1).recoverEnd = some 40 ∧
      timeReached (((linkIn .recover 0).cyc.block * 2000 + 40) % charWrap) 40 = true ∧
      ((linkIn .listen 3).link 1).state = .listen ∧ ((linkIn .listen 3).link 1).bringUp + 4 < 8 ∧
      8 ≤ ((linkIn .listen 3).link 1).bringUp + 5 ∧ (∀ n ∈ [0, 14, 15], ((linkIn .join n).link 1).state = .join ∧ ((linkIn .join n).link 1).bringUp = n) ∧
      ((linkIn .recover 0).link 1).state = .recover := by decide +kernel

/-- A fresh join that station 0 hears of, and the link errors in JOIN. -/
theorem witness_LinkComesUpInOrder_heard :
    (hearing (linkIn .join 15)).stopped = false ∧ ((hearing (linkIn .join 15)).link 1).state = .join ∧
      ((hearing (linkIn .join 15)).link 1).bringUp = 15 ∧ (hearing (linkIn .join 15)).hears 0 .linkState 0 = true := by
  decide +kernel

/-- R173, R172: LINK_STATE to the other stations; a break in JOIN; an END in LISTEN and in RECOVER. -/
theorem test_freshJoin_heard :
    ((after (.freshJoin 1) (hearing (linkIn .join 15))).link 0).events.map (·.body) = [.linkState 1 .run none] ∧
      ((after (.linkError 1 .breakChar 3) (linkIn .join 3)).link 1).counters.breaks = 1 ∧
      ((after (.forwardFaultEnd 1) (linkIn .listen 3)).link 1).bringUp = 0 ∧
      ((after (.forwardFaultEnd 1) (linkIn .recover 0)).link 1).state = .recover := by decide +kernel

/-- R172: eight FILL in a row; a time before the recover end; a fresh join. -/
theorem test_bringUp :
    ((after (.listenFillCount 1 5) (linkIn .listen 3)).link 1).state = .join ∧
      ((after (.listenFillCount 1 4) (linkIn .listen 3)).link 1).state = .listen ∧
      ((after (.recoverEnd 1 39) (linkIn .recover 0)).link 1).state = .recover ∧
      ((after (.recoverEnd 1 40) (linkIn .recover 0)).link 1).state = .listen ∧
      ((after (.transmitStart 1) (linkIn .join 14)).link 1).bringUp = 15 ∧
      ((after (.freshJoin 1) (linkIn .join 14)).link 1).state = .join ∧
      ((after (.freshJoin 1) (linkIn .join 15)).link 1).counters.joins = 1 ∧
      ((after (.freshJoin 1) (linkIn .join 15)).link 1).state = .run ∧
      ((after (.forwardEnd 1) (linkIn .join 3)).link 1).counters.strayEnd = 1 := by decide +kernel

/-- A forward packet from link 0 in a slot. -/
def forwarded (complete begun : Bool) (n : Nat) : FwdSlot :=
  { source := 0, dest := 0x02, bytes := 0x01 :: List.replicate n 0x77, complete := complete, begun := begun,
    group := none }

/-- A forward from link 0 to the first slot of link 1, `n` bytes received. -/
def forwarding (n : Nat) (begun : Bool) : State :=
  (hub.withLink 0 { LinkRec.reset with state := .run, assembly := .forward ⟨0x02, [(1, 0)], n, none⟩ }).withLink 1
    { LinkRec.reset with state := .run, fwd := (Vector.replicate 2 none).set 0 (some (forwarded false begun n)),
                         tx := if begun then some (.forward 0) else none }

/-- Link 1 with a forward of link 0 in its first slot, `n` bytes received, the transmission begun or not. -/
theorem witness_LinkLossEmptiesTheLink_forwards :
    ∀ x ∈ [(3, false), (3, true)], (forwarding x.1 x.2).stopped = false ∧ (forwarding x.1 x.2).settled = true ∧
      ((forwarding x.1 x.2).link 1).state = .run ∧ ((forwarding x.1 x.2).link 1).assembly = .outside ∧
      (forwarding x.1 x.2).slot 1 0 = some (forwarded false x.2 x.1) ∧ (forwarding x.1 x.2).linkRuns 0 = true ∧
      ((forwarding x.1 x.2).link 0).events.length + 4 < 16 ∧
      ((forwarding x.1 x.2).link 0).assembly = .forward ⟨0x02, [(1, 0)], x.1, none⟩ ∧
      ((forwarding x.1 x.2).link 0).state = .run ∧ (forwarding x.1 x.2).slotBegun 1 0 = x.2 ∧
      ((forwarding x.1 x.2).link 0).assembly ≠ .outside := by decide +kernel

/-- R174, R178: the destination's loss is told to the source; the source's own ends what it had begun. -/
theorem test_linkLoss_forwards :
    ((after (.linkError 1 .parity 0) (forwarding 3 false)).link 0).events.map (·.body) = [.routeFail .down 0x02 [1] 0] ∧
      ((after (.linkError 1 .parity 0) (forwarding 3 false)).link 0).assembly = .passOver ∧
      ((after (.linkError 0 .parity 0) (forwarding 3 true)).link 1).lineEnd = .faultEnded ∧
      ((after (.linkError 0 .strayEnd 0) (forwarding 3 true)).link 0).state = .run := by decide +kernel

/-- Broadcast 0 of link 0 with copies in the first slots of the links 1 and 2, `n` bytes received; those of the links in
`out` are being sent, those not in `copies` have ended. -/
def broadcasting (copies out : List Link) (n : Nat) (complete whole : Bool) : State :=
  let s : State := { hub with slk.broadcasts := [⟨0, 0, whole⟩], slk.nextGroup := 1 }
  let held (s : State) (d : Link) : State := s.withLink d { LinkRec.reset with
    state := .run, tx := if out.contains d then some (.forward 0) else none,
    fwd := (Vector.replicate 2 none).set 0 (some
      { source := 0, dest := 0xFF, bytes := 0x01 :: List.replicate n 0x77, complete := complete,
        begun := out.contains d, group := some 0 }) }
  copies.foldl held (s.withLink 0 { LinkRec.reset with
    state := .run, assembly := if complete then .outside else .forward ⟨0xFF, copies.map fun d => (d, 0), n, some 0⟩ })

theorem witness_ForwardReachesItsSlot_broadcast :
    ∀ n ∈ [0, 255, 256], (broadcasting [1, 2] [2] n false false).stopped = false ∧
      ((broadcasting [1, 2] [2] n false false).link 0).state = .run ∧
      ((broadcasting [1, 2] [2] n false false).link 0).assembly = .forward ⟨0xFF, [(1, 0), (2, 0)], n, some 0⟩ ∧
      (∀ c ∈ [((1 : Link), (0 : Fin 2)), (2, 0)],
        ((broadcasting [1, 2] [2] n false false).slot c.1 c.2).any (fun x => x.group = some 0) = true) ∧
      (∀ d k, ((broadcasting [1, 2] [2] n false false).slot d k).isSome = true → (d, k) ∈ [((1 : Link), (0 : Fin 2)), (2, 0)]) ∧
      (broadcasting [1, 2] [2] n false false).slk.broadcasts = [] ++ ⟨0, 0, false⟩ :: [] := by decide +kernel

/-- The last copy of a broadcast, and one of two, at the END. -/
theorem witness_TransmitterChoosesInOrder_broadcast :
    ∀ x ∈ [[(1 : Link), 2], [1]], (broadcasting x [1] 3 true false).stopped = false ∧
      ((broadcasting x [1] 3 true false).link 1).state = .run ∧
      ((broadcasting x [1] 3 true false).link 1).tx = some (.forward 0) ∧
      ((broadcasting x [1] 3 true false).slot 1 0).any (fun y => y.complete && y.group = some 0) = true ∧
      (broadcasting x [1] 3 true false).slk.broadcasts = [] ++ ⟨0, 0, false⟩ :: [] ∧
      ((broadcasting x [1] 3 true false).slot 2 0).isSome = x.contains 2 := by decide +kernel

/-- R179: a broadcast counts once, with its last copy; a FAULT_END closes every copy. -/
theorem test_broadcast :
    ((after (.transmitEnd 1) (broadcasting [1, 2] [1] 3 true false)).link 0).station.forwardedFrom = 0 ∧
      ((after (.transmitEnd 1) (broadcasting [1] [1] 3 true false)).link 0).station.forwardedFrom = 1 ∧
      (after (.transmitEnd 1) (broadcasting [1] [1] 3 true false)).slk.broadcasts = [] ∧
      ((after (.linkError 2 .parity 0) (broadcasting [2] [] 3 true true)).link 0).station.forwardedFrom = 1 ∧
      (after (.forwardFaultEnd 0) (broadcasting [1, 2] [2] 3 false false)).slot 1 0 = none ∧
      ((after (.forwardFaultEnd 0) (broadcasting [1, 2] [2] 3 false false)).link 2).lineEnd = .faultEnded ∧
      ((after (.forwardTooLong 0) (broadcasting [1, 2] [] 256 false false)).link 0).events.map (·.body) =
        [.routeFail .tooLong 0xFF [1, 2] 0] := by decide +kernel

/-- Destinations: none such, the link itself, a link that is down, one whose slots are full, one with an empty slot. -/
theorem witness_ForwardRouteIsTested :
    (linkIn .listen 0).stopped = false ∧ ((linkIn .listen 0).link 0).state = .run ∧
      ((linkIn .listen 0).link 0).assembly = .outside ∧ 4 < (0x05 : Byte).toNat ∧ (0x01 : Byte).toNat = (0 : Link).val + 1 ∧
      ((linkIn .listen 0).link 1).state ≠ .run ∧ ((linkIn .listen 0).link 2).state = .run ∧
      (linkIn .listen 0).emptySlot 2 = some 0 ∧
      (hub.withLink 1 { LinkRec.reset with state := .run, fwd := Vector.replicate 2 (some (forwarded true false 0)) }).emptySlot
        1 = none := by decide +kernel

/-- R177: the packet begins with the source's address; R179: a broadcast reaches the links in RUN. -/
theorem test_routes :
    ((after (.forwardRoute 0 0x03) hub).slot 2 0).map (·.bytes) = some [0x01] ∧
      ((after (.forwardRoute 0 0x05) hub).link 0).events.map (·.body) = [.routeFail .noSuch 0x05 [] 0] ∧
      ((after (.broadcastRoute 0) (linkIn .listen 0)).slot 1 0) = none ∧
      ((after (.broadcastRoute 0) (linkIn .listen 0)).slot 3 0).map (·.bytes) = some [0x01] := by decide +kernel

theorem witness_ForwardReachesItsSlot :
    ∀ x ∈ [(0, false), (255, true), (256, false), (256, true)], (forwarding x.1 x.2).stopped = false ∧
      ((forwarding x.1 x.2).link 0).state = .run ∧ (1 : Link) ≠ 0 ∧
      ((forwarding x.1 x.2).link 0).assembly = .forward ⟨0x02, [(1, 0)], x.1, none⟩ ∧
      (forwarding x.1 x.2).slot 1 0 = some (forwarded false x.2 x.1) ∧ (forwarding x.1 x.2).slk.broadcasts = [] := by
  decide +kernel

/-- R177, R178: a byte, the END, the FAULT_END of a transmission begun, the 257th byte. -/
theorem test_forwards :
    ((after (.forwardDataByte 0 0x77) (forwarding 0 false)).slot 1 0) = some (forwarded false false 1) ∧
      ((after (.forwardEnd 0) (forwarding 0 false)).slot 1 0) = some (forwarded true false 0) ∧
      ((after (.forwardFaultEnd 0) (forwarding 255 true)).link 1).lineEnd = .faultEnded ∧
      ((after (.forwardTooLong 0) (forwarding 256 false)).slot 1 0) = none ∧
      ((after (.forwardTooLong 0) (forwarding 256 false)).link 0).assembly = .passOver := by decide +kernel

/-- A link with a return block, a reply, an event and two forward slots, cut down step by step. -/
def sending (ret : Option ReturnBlock) (replies : List Reply) (events : List Event) (last : Fin 2) (tx : Option TxPacket) :
    State :=
  hub.withLink 1 { LinkRec.reset with
    state := .run, ret := ret, replies := replies, events := events, lastFwd := last, tx := tx,
    fwd := Vector.replicate 2 (some (forwarded true (tx = some (.forward 0)) 3)) }

/-- A reply and an event that wait. -/
def oneReply : Reply := ⟨0x20, some 0x00, false, .ok, 0, .none, false⟩

def oneEvent : Event := ⟨.beatMark 0, ⟨0, none, 0⟩, false, false⟩

theorem witness_TransmitterChoosesInOrder :
    (sending (some ⟨.a, 0, silence⟩) [oneReply] [oneEvent] 1 none).stopped = false ∧
      ((sending (some ⟨.a, 0, silence⟩) [oneReply] [oneEvent] 1 none).link 1).tx = none ∧
      ((sending none [oneReply] [oneEvent] 1 none).link 1).replies = [oneReply] ∧
      ((sending none [] [oneEvent] 1 none).link 1).events = [oneEvent] ∧
      ((sending none [] [] 1 none).link 1).lastFwd ≠ 0 ∧
      (sending none [] [] 1 none).slot 1 0 = some (forwarded true false 3) ∧
      (hub.link 1).ret = none ∧ (hub.link 1).replies = [] ∧ (hub.link 1).events = [] ∧ (∀ k, hub.slot 1 k = none) ∧
      ((sending none [] [] 1 (some (.hub [0x04]))).link 1).tx = some (.hub [0x04]) ∧
      ((sending none [] [] 1 (some (.forward 0))).link 1).tx = some (.forward 0) ∧
      (sending none [] [] 1 (some (.forward 0))).slot 1 0 = some (forwarded true true 3) ∧
      (sending none [] [] 1 (some (.forward 0))).slk.broadcasts = [] := by decide +kernel

/-- R180: the order of the sources, the slot not served last, and the END. -/
theorem test_transmit :
    ((after (.transmitStart 1) (sending (some ⟨.a, 0, silence⟩) [oneReply] [oneEvent] 1 none)).link 1).ret = none ∧
      ((after (.transmitStart 1) (sending none [oneReply] [oneEvent] 1 none)).link 1).replies = [] ∧
      ((after (.transmitStart 1) (sending none [] [oneEvent] 1 none)).link 1).events = [] ∧
      ((after (.transmitStart 1) (sending none [] [] 0 none)).link 1).tx = some (.forward 1) ∧
      ((after (.transmitEnd 1) (sending none [] [] 0 (some (.forward 0)))).link 1).station.forwardedTo = 1 := by
  decide +kernel

end Sys2Proof.Tests
end

section
/-! PROOFS. The cycle length of R4: bounds, divisibility and nearness of the rounded length, and the tapped beat of R8. -/

namespace Sys2Proof.Machine

/-- Of two multiples of `b` the larger is at least `b` larger. -/
theorem mul_add_le_of_mul_lt {b c d : Nat} (h : c * b < d * b) : c * b + b ≤ d * b := by
  have : c + 1 ≤ d := Nat.lt_of_mul_lt_mul_right h
  calc c * b + b = (c + 1) * b := by rw [Nat.add_mul, Nat.one_mul]
    _ ≤ d * b := Nat.mul_le_mul_right b this

/-- The multiples of `b` from 250 to 30 000 are those from Lmin(b) to Lmax(b). -/
theorem lmin_le_mul {b k : Nat} (hb : 1 ≤ b) (h : 250 ≤ k * b) : lmin b ≤ k * b := by
  refine Nat.mul_le_mul_right b ?_
  rw [ceilDiv, Nat.div_le_iff_le_mul_add_pred (by omega), Nat.mul_comm]
  omega

theorem mul_le_lmax {b k : Nat} (hb : 1 ≤ b) (h : k * b ≤ 30000) : k * b ≤ lmax b :=
  Nat.mul_le_mul_right b ((Nat.le_div_iff_mul_le (by omega)).2 h)

theorem le_ceilDiv_mul {b : Nat} (n : Nat) (hb : 1 ≤ b) : n ≤ ceilDiv n b * b := by
  have h1 := Nat.div_add_mod (n + b - 1) b
  have h2 := Nat.mod_lt (n + b - 1) (show b > 0 by omega)
  rw [ceilDiv, Nat.mul_comm]
  omega

theorem le_lmin {b : Nat} (hb : 1 ≤ b) : 250 ≤ lmin b := le_ceilDiv_mul 250 hb

theorem lmax_le (b : Nat) : lmax b ≤ 30000 := Nat.div_mul_le_self ..

/-- For up to 16 beats there is a legal cycle. -/
theorem ceilDiv_le_div {b : Nat} (hb : 1 ≤ b) (hb' : b ≤ 16) : ceilDiv 250 b ≤ 30000 / b := by
  refine (Nat.le_div_iff_mul_le (by omega)).2 ?_
  have h := Nat.div_mul_le_self (250 + b - 1) b
  rw [ceilDiv]
  omega

theorem lmin_le_lmax {b : Nat} (hb : 1 ≤ b) (hb' : b ≤ 16) : lmin b ≤ lmax b :=
  Nat.mul_le_mul_right b (ceilDiv_le_div hb hb')

/-- The clamp, as a case distinction. -/
theorem clampNat_eq {lo hi : Nat} (n : Nat) (h : lo ≤ hi) :
    clampNat lo hi n = if n < lo then lo else if hi < n then hi else n := by
  unfold clampNat
  split
  · omega
  · split <;> omega

theorem clampNat_bounds {lo hi : Nat} (n : Nat) (h : lo ≤ hi) : lo ≤ clampNat lo hi n ∧ clampNat lo hi n ≤ hi := by
  unfold clampNat
  omega

/-- The rounded cycle is a multiple of its beats (R4). -/
theorem roundCycle_eq_mul (m b : Nat) : ∃ k, roundCycle m b = k * b := by
  simp only [roundCycle, clampNat, lmin, lmax]
  obtain h | h := max_choice (ceilDiv 250 b * b) (min (30000 / b * b) (b * ((2 * m + b) / (2 * b)))) <;> rw [h]
  · exact ⟨_, rfl⟩
  · obtain h | h := min_choice (30000 / b * b) (b * ((2 * m + b) / (2 * b))) <;> rw [h]
    · exact ⟨_, rfl⟩
    · exact ⟨_, Nat.mul_comm ..⟩

/-- The rounded cycle is a legal cycle (R2, R4). -/
theorem roundCycle_legal {b : Nat} (m : Nat) (hb : 1 ≤ b) (hb' : b ≤ 16) :
    roundCycle m b % b = 0 ∧ 250 ≤ roundCycle m b ∧ roundCycle m b ≤ 30000 := by
  obtain ⟨k, hk⟩ := roundCycle_eq_mul m b
  obtain ⟨hlo, hhi⟩ := clampNat_bounds (b * ((2 * m + b) / (2 * b))) (lmin_le_lmax hb hb')
  exact ⟨by rw [hk, Nat.mul_mod_left], (le_lmin hb).trans hlo, hhi.trans (lmax_le b)⟩

/-- The rounded multiple lies within half a beat count of the length it rounds. -/
theorem rounded_near {b : Nat} (m : Nat) (hb : 1 ≤ b) :
    2 * ((2 * m + b) / (2 * b) * b) ≤ 2 * m + b ∧ 2 * m < 2 * ((2 * m + b) / (2 * b) * b) + b := by
  have h1 := Nat.div_add_mod (2 * m + b) (2 * b)
  have h2 := Nat.mod_lt (2 * m + b) (show 2 * b > 0 by omega)
  have h3 : 2 * b * ((2 * m + b) / (2 * b)) = 2 * ((2 * m + b) / (2 * b) * b) := by ring
  omega

/-- No legal multiple of the beats lies nearer than the rounded cycle, and of two as near it is the larger (R4). -/
theorem roundCycle_nearest {b k : Nat} (m : Nat) (hb : 1 ≤ b) (hb' : b ≤ 16) (hk : 250 ≤ k * b)
    (hk' : k * b ≤ 30000) :
    ((roundCycle m b : Int) - m).natAbs ≤ ((k * b : Nat) - m : Int).natAbs ∧
      (roundCycle m b < k * b → ((roundCycle m b : Int) - m).natAbs < ((k * b : Nat) - m : Int).natAbs) := by
  obtain ⟨hlow, hhigh⟩ := rounded_near m hb
  have hmin := lmin_le_mul hb hk
  have hmax := mul_le_lmax hb hk'
  have hr : roundCycle m b = _ := clampNat_eq (b * ((2 * m + b) / (2 * b))) (lmin_le_lmax hb hb')
  rw [Nat.mul_comm b] at hr
  rw [hr]
  split
  · next h =>
    have := mul_add_le_of_mul_lt h
    rw [lmin] at hmin ⊢
    omega
  · split
    · next h =>
      have := mul_add_le_of_mul_lt h
      rw [lmax] at hmax ⊢
      omega
    · obtain h | h | h := Nat.lt_trichotomy (k * b) ((2 * m + b) / (2 * b) * b)
      · have := mul_add_le_of_mul_lt h
        omega
      · omega
      · have := mul_add_le_of_mul_lt h
        omega

/-- A cycle of `b` tapped beats is a legal cycle (R8). -/
theorem tapBeat_legal {b : Nat} (sum : Nat) (hb : 1 ≤ b) (hb' : b ≤ 16) :
    250 ≤ tapBeat sum b * b ∧ tapBeat sum b * b ≤ 30000 := by
  obtain ⟨hlo, hhi⟩ := clampNat_bounds ((2 * sum + 3) / 6) (ceilDiv_le_div hb hb')
  exact ⟨(le_lmin hb).trans (Nat.mul_le_mul_right b hlo), (Nat.mul_le_mul_right b hhi).trans (lmax_le b)⟩

/-- Lmax(B) is its own rounded length (R13). -/
theorem roundCycle_lmax {b : Nat} (hb : 1 ≤ b) (hb' : b ≤ 16) : roundCycle (lmax b) b = lmax b := by
  have h := (roundCycle_nearest (k := 30000 / b) (lmax b) hb hb' ((le_lmin hb).trans (lmin_le_lmax hb hb'))
    (lmax_le b)).1
  have : (30000 / b * b : Nat) = lmax b := rfl
  rw [this] at h
  omega

/-- Settles O18: the clamp as a case distinction, and the distance of the rounded multiple on both sides. -/
theorem cycleIsTheNearestMultiple : Obligations.CycleIsTheNearestMultiple := by
  intro m b hb hb'
  obtain ⟨hmod, hlo, hhi⟩ := roundCycle_legal m hb hb'
  refine ⟨clampNat_eq _ (lmin_le_lmax hb hb'), hmod, hlo, hhi, fun k hk hk' => ?_⟩
  have h := roundCycle_nearest m hb hb' hk hk'
  push_cast at h
  exact h

end Sys2Proof.Machine
end

section
/-! PROOFS. Each change of the timeline record keeps it legal (section 1.2). -/

namespace Sys2Proof.Machine

/-- The timeline `d` is one that a step inside a block may make of `c`: N is as it was, and a legal record stays legal. -/
def Cyc.keeps (c d : Cyc) : Prop := d.block = c.block ∧ (c.legal → d.legal)

theorem Cyc.keeps.refl (c : Cyc) : c.keeps c := ⟨rfl, id⟩

theorem Cyc.keeps.trans {c d e : Cyc} (h : c.keeps d) (k : d.keeps e) : c.keeps e :=
  ⟨k.1.trans h.1, fun l => k.2 (h.2 l)⟩

/-- The fields that the model keeps beside section 1.2's are free. -/
theorem Cyc.keeps_beside (c : Cyc) (r : Option (Vector (Option Nat) 8)) (w : Bool) (i : BlockInfo) :
    c.keeps { c with runOut := r, withheld := w, last := i } := ⟨rfl, id⟩

theorem Cyc.keeps_withheld (c : Cyc) (w : Bool) : c.keeps { c with withheld := w } := ⟨rfl, id⟩

/-! ## Into UNSET -/

/-- The timeline back in UNSET with C = 0 (R10, R14, R22). -/
theorem Cyc.keeps_toUnset_zero (c : Cyc) : c.keeps { c.toUnset with count := 0 } := by
  refine ⟨rfl, fun ⟨h1, h2, _, h4, _⟩ => ⟨h1, h2, (by decide : 0 < 53760), h4, ?_⟩⟩
  simp [legalContent, Cyc.toUnset]

/-- An abandoned count-in has C = 0 already (R10). -/
theorem Cyc.keeps_toUnset {c : Cyc} (h : c.state = .counting) : c.keeps c.toUnset := by
  refine ⟨rfl, fun ⟨h1, h2, h3, h4, hc⟩ => ⟨h1, h2, h3, h4, ?_⟩⟩
  simp only [legalContent, h] at hc
  simp [legalContent, Cyc.toUnset, hc]

/-! ## Into RUNNING -/

/-- CYCLE_SET's cycle (R5). -/
theorem Cyc.keeps_startCycle {c : Cyc} {b : Nat} (n : Nat) (h : c.state = .unset) (hb : 1 ≤ b) (hb' : b ≤ 16) :
    c.keeps (c.startCycle (roundCycle n b) b) := by
  refine ⟨rfl, fun ⟨_, _, _, h4, hc⟩ => ⟨hb, hb', (by decide : 0 < 53760), h4, ?_⟩⟩
  obtain ⟨hm, hlo, hhi⟩ := roundCycle_legal n hb hb'
  simp only [legalContent, h] at hc
  refine ⟨⟨_, _, rfl, rfl, hb, hb', hlo, hhi, hm⟩, ⟨_, _, rfl, rfl, by omega⟩, ?_⟩
  simp [Cyc.startCycle, hc]

/-- The measured cycle (R12). -/
theorem Cyc.keeps_placeMeasured {c : Cyc} (h : c.state = .measuring) : c.keeps c.placeMeasured := by
  refine ⟨rfl, fun ⟨h1, h2, _, h4, hc⟩ => ⟨h1, h2, Nat.mod_lt _ (by decide), h4, ?_⟩⟩
  obtain ⟨hm, hlo, hhi⟩ := roundCycle_legal c.measured h1 h2
  simp only [legalContent, h] at hc
  refine ⟨⟨_, _, rfl, rfl, h1, h2, hlo, hhi, hm⟩, ⟨_, _, rfl, rfl, Nat.mod_lt _ (by omega)⟩, ?_⟩
  simp [Cyc.placeMeasured, hc]

/-- A counted-in timeline has its cycle, its three intervals and no last tap (R8). -/
theorem Cyc.legal.counted {c : Cyc} (hl : c.legal) (h : c.state = .counting) (hs : c.schedStart.isSome) :
    legalCycle c.len c.beats ∧ c.pos = none ∧ c.lastTap = none ∧ c.measureStart = none := by
  obtain ⟨-, -, -, -, hc⟩ := hl
  simp only [legalContent, h] at hc
  obtain ⟨hp, -, hm, ⟨-, -, -, -, hn⟩ | ⟨hcyc, -, ht, -⟩⟩ := hc
  · simp [hn] at hs
  · exact ⟨hcyc, hp, ht, hm⟩

/-- The scheduled start (R9). -/
theorem Cyc.keeps_scheduled {c : Cyc} (h : c.state = .counting) (hs : c.schedStart.isSome) : c.keeps c.scheduled := by
  refine ⟨rfl, fun hl => ?_⟩
  obtain ⟨hcyc, -, ht, hm⟩ := hl.counted h hs
  obtain ⟨h1, h2, -, h4, -⟩ := hl
  obtain ⟨l, b, hlen, hbeats, hb, hb', hlo, hhi, hmod⟩ := hcyc
  exact ⟨h1, h2, (by decide : 0 < 53760), h4, ⟨l, b, hlen, hbeats, hb, hb', hlo, hhi, hmod⟩,
    ⟨l, 0, hlen, rfl, by omega⟩, rfl, ht, rfl, hm⟩

/-- A counted-in timeline stopped by a hold (R21). -/
theorem Cyc.keeps_heldCount {c : Cyc} (h : c.state = .counting) (hs : c.schedStart.isSome) :
    c.keeps { c with state := .paused, pos := some 0, count := 0, schedStart := none, taps := [] } := by
  refine ⟨rfl, fun hl => ?_⟩
  obtain ⟨hcyc, -, ht, hm⟩ := hl.counted h hs
  obtain ⟨h1, h2, -, h4, -⟩ := hl
  exact ⟨h1, h2, (by decide : 0 < 53760), h4, hcyc, rfl, rfl, ht, rfl, hm⟩

/-- A PAUSED timeline restarted from the top (R20). -/
theorem Cyc.keeps_restart {c : Cyc} (h : c.state = .paused) :
    c.keeps { c with state := .running, pos := some 0, count := 0 } := by
  refine ⟨rfl, fun ⟨h1, h2, _, h4, hc⟩ => ⟨h1, h2, (by decide : 0 < 53760), h4, ?_⟩⟩
  simp only [legalContent, h] at hc
  obtain ⟨⟨l, b, hlen, hbeats, hb, hb', hlo, hhi, hmod⟩, -, hrest⟩ := hc
  exact ⟨⟨l, b, hlen, hbeats, hb, hb', hlo, hhi, hmod⟩, ⟨l, 0, hlen, rfl, by omega⟩, hrest⟩

/-- RUNNING left by a stop or a hold (R19, R21). -/
theorem Cyc.keeps_leaveRunning {c : Cyc} (r : Option (Vector (Option Nat) 8)) (w : Bool) (h : c.state = .running) :
    c.keeps { c with state := .paused, pos := some 0, runOut := r, withheld := w } := by
  refine ⟨rfl, fun ⟨h1, h2, h3, h4, hc⟩ => ⟨h1, h2, h3, h4, ?_⟩⟩
  simp only [legalContent, h] at hc
  obtain ⟨hcyc, -, hrest⟩ := hc
  exact ⟨hcyc, rfl, hrest⟩

/-! ## MEASURING and COUNTING -/

/-- Measuring begins (R11). -/
theorem Cyc.keeps_startMeasuring {c : Cyc} (h : c.state = .unset) : c.keeps c.startMeasuring := by
  refine ⟨rfl, fun ⟨h1, h2, h3, h4, hc⟩ => ⟨h1, h2, h3, h4, ?_⟩⟩
  simp only [legalContent, h] at hc
  simp [legalContent, Cyc.startMeasuring, hc]

/-- A beat count that a TAP may set: an absent one leaves the setting (R3). -/
theorem tapBeatsArg_legal {x : Byte} {b : Option Nat} (h : tapBeatsArg x = some b) (n : Nat) (h1 : 1 ≤ n)
    (h2 : n ≤ 16) : 1 ≤ b.getD n ∧ b.getD n ≤ 16 := by
  unfold tapBeatsArg beatsArg at h
  split at h
  · cases h; exact ⟨h1, h2⟩
  · split at h
    · next hb => cases h; exact hb
    · cases h

/-- The first tap of a count-in (R6). -/
theorem Cyc.keeps_firstTap {c : Cyc} {x : Byte} {b : Option Nat} (h : c.state = .unset) (hb : tapBeatsArg x = some b) :
    c.keeps (c.firstTap b) := by
  refine ⟨rfl, fun ⟨h1, h2, h3, h4, hc⟩ => ?_⟩
  obtain ⟨hb1, hb2⟩ := tapBeatsArg_legal hb _ h1 h2
  refine ⟨hb1, hb2, h3, h4, ?_⟩
  simp only [legalContent, h] at hc
  simp [legalContent, Cyc.firstTap, hc]

/-- A further tap (R7, R8), in the order of its cases: the block's second, one past 2 000 blocks, one of the first two
intervals, and the fourth tap, which fixes the cycle. -/
theorem Cyc.keeps_nextTap {c : Cyc} {x : Byte} {b : Option Nat} (h : c.state = .counting) (hs : c.schedStart = none)
    (hb : tapBeatsArg x = some b) : c.keeps (c.nextTap b) := by
  refine ⟨by unfold Cyc.nextTap; simp only; split_ifs <;> rfl, fun ⟨h1, h2, h3, h4, hc⟩ => ?_⟩
  obtain ⟨hb1, hb2⟩ := tapBeatsArg_legal hb _ h1 h2
  simp only [legalContent, h, hs] at hc
  obtain ⟨hpos, hcount, hm, ⟨hlen, hbeats, htaps, hlast, -⟩ | ⟨-, -, -, hf⟩⟩ := hc
  · unfold Cyc.nextTap
    extract_lets c' gap taps beat
    split_ifs with g1 g2 g3
    · exact ⟨hb1, hb2, h3, h4, by simp [legalContent, c', h, hpos, hcount, hm, hlen, hbeats, htaps, hlast, hs]⟩
    · exact ⟨hb1, hb2, h3, h4, by simp [legalContent, c', h, hpos, hcount, hm, hlen, hbeats, hs]⟩
    · refine ⟨hb1, hb2, h3, h4, ?_⟩
      have : taps.length ≤ 2 := by omega
      simp [legalContent, c', h, hpos, hcount, hm, hlen, hbeats, hs, this]
    · refine ⟨hb1, hb2, h3, h4, ?_⟩
      have hthree : taps.length = 3 := by simp only [taps, List.length_append, List.length_singleton, c'] at g3 ⊢; omega
      obtain ⟨hlo, hhi⟩ := tapBeat_legal taps.sum hb1 hb2
      simp only [legalContent, c', h]
      exact ⟨hpos, hcount, hm, .inr ⟨⟨_, _, rfl, rfl, hb1, hb2, hlo, hhi, Nat.mul_mod_left ..⟩, hthree, trivial, rfl⟩⟩
  · simp at hf

/-! ## A new block -/

/-- The advance of a RUNNING position (R15). -/
theorem Cyc.legal_advance {c : Cyc} (h : c.legal) : c.advance.legal := by
  obtain ⟨h1, h2, h3, h4, hc⟩ := h
  unfold Cyc.advance
  split
  · next p l hs hp hl =>
    simp only [legalContent, hs] at hc
    obtain ⟨hcyc, -, hrest⟩ := hc
    have hlo : 0 < l := by
      obtain ⟨l', b, hlen, -, -, -, hlo, -⟩ := hcyc
      rw [hl] at hlen; cases hlen; omega
    split
    · next hlt => exact ⟨h1, h2, h3, h4, by simp only [legalContent, hs]; exact ⟨hcyc, ⟨l, p + 1, hl, rfl, hlt⟩, hrest⟩⟩
    · refine ⟨h1, h2, Nat.mod_lt _ (by decide), h4, ?_⟩
      simp only [legalContent, hs]
      exact ⟨hcyc, ⟨l, 0, hl, rfl, hlo⟩, hrest⟩
  · exact ⟨h1, h2, h3, h4, hc⟩

/-- The timeline in a new block (R1, R15). -/
theorem Cyc.legal_tick {c : Cyc} (info : BlockInfo) (h : c.legal) : (c.tick info).legal := by
  obtain ⟨h1, h2, h3, -, hc⟩ := Cyc.legal_advance h
  exact ⟨h1, h2, h3, Nat.mod_lt _ (by decide), hc⟩

/-- The timeline after power-on reset and after HUB_RESET (R22). -/
theorem Cyc.reset_legal {n : Nat} (i : BlockInfo) (h : n < 4294967296) :
    ({ Cyc.reset with block := n, last := i } : Cyc).legal :=
  ⟨(by decide : 1 ≤ 4), (by decide : 4 ≤ 16), (by decide : 0 < 53760), h, rfl, rfl, rfl, rfl, rfl, rfl, rfl, rfl⟩

theorem Cyc.keeps_hubReset (c : Cyc) : c.keeps c.hubReset := ⟨rfl, fun ⟨_, _, _, h4, _⟩ => Cyc.reset_legal c.last h4⟩

end Sys2Proof.Machine
end

section
/-! PROOFS. What the hub's work inside a block leaves as it is: N, a legal timeline, the supply watch, the links' states,
and of every input all but its pass. -/

namespace Sys2Proof.Machine

/-- `u` comes of `s` inside one block: N is as it was, the timeline record stays legal, and the supply watch, the brownout,
the free-value counter, the waiting commands, the round-robin pointer and the links' states are as they were. -/
structure keepsHub (s u : State) : Prop where
  cyc : s.cyc.keeps u.cyc
  smn : u.smn = s.smn
  stopped : u.stopped = s.stopped
  freeIndex : u.freeIndex = s.freeIndex
  pending : u.pending = s.pending
  pointer : u.rqu.pointer = s.rqu.pointer
  runs : ∀ lk, u.linkRuns lk = s.linkRuns lk

/-- An input's state without its pass (R75). -/
def InputRec.besidePass (r : InputRec) : InputRec := { r with pass := none, endedHere := false }

/-- `u` comes of `s` inside one block and no input has changed but for its pass. -/
structure keepsInputs (s u : State) : Prop extends keepsHub s u where
  inputs : ∀ i, (u.input i).besidePass = (s.input i).besidePass

theorem keepsHub.trans {s u v : State} (h : keepsHub s u) (k : keepsHub u v) : keepsHub s v where
  cyc := h.cyc.trans k.cyc
  smn := k.smn.trans h.smn
  stopped := k.stopped.trans h.stopped
  freeIndex := k.freeIndex.trans h.freeIndex
  pending := k.pending.trans h.pending
  pointer := k.pointer.trans h.pointer
  runs lk := (k.runs lk).trans (h.runs lk)

theorem keepsInputs.refl (s : State) : keepsInputs s s :=
  ⟨⟨Cyc.keeps.refl _, rfl, rfl, rfl, rfl, rfl, fun _ => rfl⟩, fun _ => rfl⟩

theorem keepsHub.refl (s : State) : keepsHub s s := (keepsInputs.refl s).tokeepsHub

theorem keepsInputs.trans {s u v : State} (h : keepsInputs s u) (k : keepsInputs u v) : keepsInputs s v :=
  ⟨h.tokeepsHub.trans k.tokeepsHub, fun i => (k.inputs i).trans (h.inputs i)⟩

theorem keepsInputs_ite {c : Prop} [Decidable c] {s u v : State} (h : c → keepsInputs s u) (k : ¬ c → keepsInputs s v) :
    keepsInputs s (if c then u else v) := by
  split
  · next hc => exact h hc
  · next hc => exact k hc

theorem keepsInputs_foldl {α : Type} (f : State → α → State) (h : ∀ s x, keepsInputs s (f s x)) :
    ∀ (xs : List α) (s : State), keepsInputs s (xs.foldl f s)
  | [], s => keepsInputs.refl s
  | x :: xs, s => (h s x).trans (keepsInputs_foldl f h xs (f s x))

theorem keepsHub_foldl {α : Type} (f : State → α → State) (h : ∀ s x, keepsHub s (f s x)) :
    ∀ (xs : List α) (s : State), keepsHub s (xs.foldl f s)
  | [], s => keepsHub.refl s
  | x :: xs, s => (h s x).trans (keepsHub_foldl f h xs (f s x))

/-! ## The updates -/

theorem onlyStore.keepsInputs {s u : State} (h : onlyStore s u) : keepsInputs s u := by
  obtain ⟨hc, hp, -, -, -, -, hs, -, ht, hf, hq, hr⟩ := h.fields
  refine ⟨⟨by rw [hc]; exact Cyc.keeps.refl _, hs, ht, hf, hq, hr, fun lk => ?_⟩, fun i => by simp only [State.input, hp]⟩
  exact onlyEvents.linkRuns h lk

theorem onlyEvents.keepsInputs {s u : State} (h : onlyEvents s u) : keepsInputs s u := h.store.keepsInputs

theorem keepsInputs_withCyc {s : State} {c : Cyc} (h : s.cyc.keeps c) : keepsInputs s (s.withCyc c) :=
  ⟨⟨h, rfl, rfl, rfl, rfl, rfl, fun _ => rfl⟩, fun _ => rfl⟩

theorem keepsHub_withInput (s : State) (i : Input) (x : InputRec) : keepsHub s (s.withInput i x) :=
  ⟨Cyc.keeps.refl _, rfl, rfl, rfl, rfl, rfl, fun _ => rfl⟩

theorem keepsInputs_withInput {s : State} {i : Input} {x : InputRec} (h : x.besidePass = (s.input i).besidePass) :
    keepsInputs s (s.withInput i x) := by
  refine ⟨keepsHub_withInput s i x, fun j => ?_⟩
  rw [State.withInput_input]
  split
  · next e => rw [e, h]
  · rfl

theorem keepsInputs_withPass (s : State) (i : Input) (p : Option Pass) : keepsInputs s (s.withPass i p) :=
  keepsInputs_withInput rfl

theorem keepsInputs_withMem (s : State) (m : List Host.Cell) : keepsInputs s (s.withMem m) :=
  ⟨⟨Cyc.keeps.refl _, rfl, rfl, rfl, rfl, rfl, fun _ => rfl⟩, fun _ => rfl⟩

theorem keepsInputs_withAqu (s : State) (x : Aqu) : keepsInputs s (s.withAqu x) :=
  ⟨⟨Cyc.keeps.refl _, rfl, rfl, rfl, rfl, rfl, fun _ => rfl⟩, fun _ => rfl⟩

theorem keepsInputs_withMxe (s : State) (x : Mxe) : keepsInputs s (s.withMxe x) :=
  ⟨⟨Cyc.keeps.refl _, rfl, rfl, rfl, rfl, rfl, fun _ => rfl⟩, fun _ => rfl⟩

theorem keepsInputs_withBne (s : State) (x : Bne) : keepsInputs s (s.withBne x) :=
  ⟨⟨Cyc.keeps.refl _, rfl, rfl, rfl, rfl, rfl, fun _ => rfl⟩, fun _ => rfl⟩

theorem keepsInputs_withTmc (s : State) (x : Tmc) : keepsInputs s (s.withTmc x) :=
  ⟨⟨Cyc.keeps.refl _, rfl, rfl, rfl, rfl, rfl, fun _ => rfl⟩, fun _ => rfl⟩

theorem keepsInputs_withStation (s : State) (lk : Link) (x : Settings) : keepsInputs s (s.withStation lk x) :=
  ⟨⟨Cyc.keeps.refl _, rfl, rfl, rfl, rfl, rfl, fun _ => rfl⟩, fun _ => rfl⟩

theorem keepsInputs_withLink {s : State} {lk : Link} {x : LinkRec} (h : x.state = (s.link lk).state) :
    keepsInputs s (s.withLink lk x) := by
  refine ⟨⟨Cyc.keeps.refl _, rfl, rfl, rfl, rfl, rfl, fun j => ?_⟩, fun _ => rfl⟩
  simp only [State.linkRuns, State.withLink_link]
  split
  · next e => rw [e, h]
  · rfl

theorem keepsInputs_pushReply (lk : Link) (r : Reply) (s : State) : keepsInputs s (pushReply lk r s) := by
  unfold pushReply
  exact keepsInputs_ite (fun _ => keepsInputs_withLink rfl) fun _ => keepsInputs.refl s

theorem keepsInputs_reply (lk : Link) (a b : Byte) (k : Bool) (c : ReplyCode) (p : Payload) (s : State) :
    keepsInputs s (reply lk a b k c p s) := keepsInputs_pushReply ..

theorem keepsInputs_emit (b : EventBody) (s : State) : keepsInputs s (emit b s) := (onlyEvents_emit b s).keepsInputs

theorem keepsInputs_emitAt (info : BlockInfo) (b : EventBody) (s : State) : keepsInputs s (emitAt info b s) :=
  (onlyEvents_emitAt info b s).keepsInputs

theorem keepsInputs_emitMarks (s : State) : keepsInputs s (emitMarks s) := by
  obtain h | h | h := emitMarks_cases s <;> rw [h]
  · exact keepsInputs.refl s
  · exact keepsInputs_withCyc (Cyc.keeps_withheld _ _)
  · exact (onlyEvents_sendBlockMarks s).keepsInputs

/-- The two ways of setting the marks of a block whose timeline has just been set. -/
theorem keepsInputs_setMarks {s : State} {c : Cyc} (h : s.cyc.keeps c) : keepsInputs s (emitMarks (s.withCyc c)) :=
  (keepsInputs_withCyc h).trans (keepsInputs_emitMarks _)

theorem keepsInputs_mapPass (i : Input) (f : Pass → Pass) (s : State) : keepsInputs s (mapPass i f s) := by
  unfold mapPass
  split
  · exact keepsInputs.refl s
  · exact keepsInputs_withPass _ _ _

theorem keepsInputs_mapLayer (id : LayerId) (f : Layer → Layer) (s : State) : keepsInputs s (mapLayer id f s) :=
  (onlyStore_mapLayer id f s).keepsInputs

theorem keepsInputs_storeBlock (id : LayerId) (pos : Nat) (b : Block) (s : State) :
    keepsInputs s (storeBlock id pos b s) := by
  rw [(storeBlock_mem id pos b s).1]
  exact keepsInputs_withMem _ _

theorem keepsInputs_rampEnds (id : LayerId) (s : State) : keepsInputs s (rampEnds id s) := by
  unfold rampEnds
  split
  · exact keepsInputs.refl s
  · split
    · exact keepsInputs_storeBlock ..
    · exact (keepsInputs_storeBlock _ _ _ _).trans (keepsInputs_storeBlock _ _ _ _)

/-! ## Ends, cuts and aborts of passes -/

theorem keepsInputs_clearPass (late : Bool) (i : Input) (s : State) : keepsInputs s (clearPass late i s) :=
  keepsInputs_withInput rfl

theorem keepsInputs_stopMeasuring (kind : PassKind) (s : State) : keepsInputs s (stopMeasuring kind s) := by
  unfold stopMeasuring
  exact keepsInputs_ite (fun _ => keepsInputs_withCyc (Cyc.keeps_toUnset_zero _)) fun _ => keepsInputs.refl s

theorem keepsInputs_dropPass (i : Input) (p : Pass) (s : State) :
    keepsInputs s (stopMeasuring p.kind (settleTrack p.track (dropLayer p.layer (clearPass false i s)))) :=
  ((keepsInputs_clearPass false i s).trans ((onlyStore_dropLayer _ _).trans (onlyStore_settleTrack _ _)).keepsInputs).trans
    (keepsInputs_stopMeasuring _ _)

theorem keepsInputs_finishCut (cause : CutCause) (i : Input) (s : State) : keepsInputs s (finishCut cause i s) := by
  unfold finishCut
  split
  · exact keepsInputs.refl s
  · next p _ =>
    refine keepsInputs_ite (fun _ => ?_) fun _ => ?_
    · exact ((keepsInputs_dropPass i p s).trans (onlyStore_lowMark _).keepsInputs).trans (keepsInputs_emit _ _)
    · exact (((keepsInputs_clearPass false i s).trans (keepsInputs_rampEnds _ _)).trans
        (keepsInputs_mapLayer _ _ _)).trans (keepsInputs_emit _ _)

theorem keepsInputs_fixLength (p : Pass) (k len : Nat) (s : State) : keepsInputs s (fixLength p k len s) :=
  (onlyStore_fixLength p k len s).keepsInputs

theorem keepsInputs_trimTo (id : LayerId) (n : Nat) (s : State) : keepsInputs s (trimTo id n s) :=
  (onlyStore_trimTo id n s).keepsInputs

theorem keepsInputs_fixAtCut (marks : Bool) (p : Pass) (s : State) : keepsInputs s (fixAtCut marks p s) := by
  unfold fixAtCut
  split
  · exact keepsInputs.refl s
  · refine keepsInputs_ite (fun h => ?_) fun _ => keepsInputs.refl s
    simp only [Bool.and_eq_true, decide_eq_true_eq] at h
    have hc := Cyc.keeps_placeMeasured h.1
    refine keepsInputs.trans (keepsInputs_ite (fun _ => ?_) fun _ => ?_)
      ((keepsInputs_fixLength _ _ _ _).trans (keepsInputs_trimTo _ _ _))
    · exact keepsInputs_setMarks hc
    · exact keepsInputs_withCyc hc
  · split
    · exact keepsInputs_ite (fun _ => keepsInputs_fixLength ..) fun _ => keepsInputs.refl s
    · exact keepsInputs.refl s

theorem keepsInputs_cutPass (cause : CutCause) (marks : Bool) (i : Input) (s : State) :
    keepsInputs s (cutPass cause marks i s) := by
  unfold cutPass
  split
  · exact keepsInputs.refl s
  · next p _ =>
    refine keepsInputs_ite (fun _ => keepsInputs.refl s) fun _ => ?_
    exact (keepsInputs_fixAtCut marks p s).trans
      (keepsInputs_ite (fun _ => keepsInputs_withPass _ _ _) fun _ => keepsInputs_finishCut _ _ _)

theorem keepsInputs_cutAll (cause : CutCause) (marks : Bool) (s : State) : keepsInputs s (cutAll cause marks s) :=
  keepsInputs_foldl _ (fun s i => keepsInputs_cutPass cause marks i s) allInputs s

theorem keepsInputs_abortPass (mark event : Bool) (i : Input) (s : State) :
    keepsInputs s (abortPass mark event i s) := by
  unfold abortPass
  split
  · exact keepsInputs.refl s
  · next p _ =>
    have h := (keepsInputs_dropPass i p s).trans
      (keepsInputs_ite (c := mark = true) (fun _ => (onlyStore_lowMark _).keepsInputs) fun _ => keepsInputs.refl _)
    exact keepsInputs_ite (fun _ => h.trans (keepsInputs_emit _ _)) fun _ => h

theorem keepsInputs_abortTrack (t : TrackId) : ∀ (n : Nat) (s : State), keepsInputs s (abortTrack t n s)
  | 0, s => keepsInputs.refl s
  | n + 1, s => by
    unfold abortTrack
    split
    · exact keepsInputs.refl s
    · exact (keepsInputs_abortPass _ _ _ _).trans (keepsInputs_abortTrack t n _)

/-! ## Starts -/

theorem keepsInputs_enterPass (i : Input) (t : TrackId) {kind : PassKind} (id : LayerId) (here start d : Nat)
    {s : State} (h : kind = .measure → s.cyc.state = .unset) :
    keepsInputs s (enterPass i t kind id here start d s) := by
  unfold enterPass
  extract_lets tr first s1 s2 s3
  have h1 : keepsInputs s s1 := (onlyStore_withTrack s t _).keepsInputs
  have h2 : keepsInputs s s2 :=
    keepsInputs_ite (fun hk => h1.trans (keepsInputs_withCyc (Cyc.keeps_startMeasuring (h hk)))) fun _ => h1
  exact (h2.trans (keepsInputs_withPass s2 i _)).trans
    ⟨⟨Cyc.keeps.refl _, rfl, rfl, rfl, rfl, rfl, fun _ => rfl⟩, fun _ => rfl⟩

/-- A pass that starts now measures only in UNSET (R76). -/
theorem State.unset_of_kindFor {s : State} {t : TrackId} (h : s.kindFor t = .measure) : s.cyc.state = .unset := by
  unfold State.kindFor at h
  split at h
  · assumption
  · split at h <;> cases h

theorem keepsInputs_startPass (i : Input) (t : TrackId) (d : Nat) (s : State) :
    keepsInputs s (startPass i t d s).1 := by
  unfold startPass
  extract_lets kind length here
  split
  · exact ((onlyStore_freeRedo t s).trans (onlyStore_settleTrack _ _)).keepsInputs
  · next id s1 h =>
    have h1 : onlyStore s s1 := (onlyStore_freeRedo t s).trans (findRecord_free h).1
    extract_lets serial s2
    have h2 : onlyStore s s2 := h1.trans ((onlyStore_advanceSerial s1).trans (onlyStore_withLayer _ _ _))
    have h3 := h2.trans (onlyStore_settlePages id here d (length.getD 240000) s2)
    split
    · next s3 e =>
      rw [e] at h3
      exact (h3.trans ((onlyStore_dropLayer _ _).trans (onlyStore_settleTrack _ _))).keepsInputs
    · next s3 n e =>
      rw [e] at h3
      extract_lets start s4
      have h4 : onlyStore s (mapLayer id (fun l => { l with start := start, written := n }) s3) :=
        h3.trans (onlyStore_mapLayer _ _ _)
      have h5 : keepsInputs s s4 := h4.keepsInputs.trans
        (keepsInputs_enterPass i t id here start n fun hk => by rw [h4.fields.1]; exact State.unset_of_kindFor hk)
      clear_value s4
      dsimp only
      exact h5.trans (keepsInputs_emit _ s4)

theorem keepsInputs_execOpen (i : Input) (t : TrackId) (d : Nat) (s : State) : keepsInputs s (execOpen i t d s).1 := by
  unfold execOpen
  split
  · exact keepsInputs.refl s
  · split
    · exact keepsInputs.refl s
    · exact keepsInputs_startPass ..

/-! ## Writing -/

theorem keepsInputs_backfillCopy (i : Input) (s : State) : keepsInputs s (backfillCopy i s) := by
  unfold backfillCopy
  split
  · exact keepsInputs.refl s
  · exact (keepsInputs_foldl _ (fun s j => keepsInputs_storeBlock _ _ _ s) _ s).trans (keepsInputs_mapPass _ _ _)

theorem keepsInputs_liveWrite (i : Input) (b : Block) (s : State) : keepsInputs s (liveWrite i b s) := by
  unfold liveWrite
  split
  · exact keepsInputs.refl s
  · next p _ =>
    refine keepsInputs_ite (fun _ => ?_) fun _ => keepsInputs.refl s
    have h := onlyStore_claimSlot p.layer (p.writePos / 256) s
    split
    · next s1 e =>
      rw [e] at h
      exact h.keepsInputs.trans (keepsInputs_cutPass _ _ _ _)
    · next s1 e =>
      rw [e] at h
      exact ((h.keepsInputs.trans (keepsInputs_storeBlock _ _ _ _)).trans (keepsInputs_mapLayer _ _ _)).trans
        (keepsInputs_mapPass _ _ _)

theorem keepsInputs_endCutBackfill (i : Input) (s : State) : keepsInputs s (endCutBackfill i s) := by
  unfold endCutBackfill
  split
  · split
    · exact keepsInputs_ite (fun _ => keepsInputs_finishCut ..) fun _ => keepsInputs.refl s
    · exact keepsInputs.refl s
  · exact keepsInputs.refl s

theorem keepsInputs_finishCutBackfill (i : Input) (s : State) : keepsInputs s (finishCutBackfill i s) := by
  unfold finishCutBackfill
  exact keepsInputs_ite (fun _ => (keepsInputs_backfillCopy i s).trans (keepsInputs_endCutBackfill i _))
    fun _ => keepsInputs.refl s

/-! ## Closes -/

theorem keepsInputs_completePass (late : Bool) (spill : Block) (i : Input) (s : State) :
    keepsInputs s (completePass late spill i s) := by
  unfold completePass
  split
  · exact keepsInputs.refl s
  · exact (((keepsInputs_storeBlock _ _ _ s).trans (keepsInputs_mapLayer _ _ _)).trans
      (keepsInputs_clearPass _ _ _)).trans (keepsInputs_emitAt _ _ _)

theorem keepsInputs_awaitSpill (i : Input) (e : Nat) (s : State) : keepsInputs s (awaitSpill i e s) :=
  keepsInputs_mapPass ..

theorem keepsInputs_closeMeasure (i : Input) (p : Pass) {s : State} (h : s.cyc.state = .measuring) :
    keepsInputs s (closeMeasure i p s) := by
  unfold closeMeasure
  extract_lets m s1 len s2 spill
  have h2 : keepsInputs s s2 := (keepsInputs_setMarks (Cyc.keeps_placeMeasured h)).trans (keepsInputs_fixLength _ _ _ _)
  refine keepsInputs_ite (fun _ => ?_) fun _ => keepsInputs_ite (fun _ => ?_) fun _ => ?_
  · exact ((h2.trans (keepsInputs_trimTo _ _ _)).trans (keepsInputs_mapPass _ _ _)).trans
      (keepsInputs_completePass _ _ _ _)
  · exact h2.trans (keepsInputs_awaitSpill _ _ _)
  · exact h2.trans (keepsInputs_mapPass _ _ _)

theorem keepsInputs_closeAtBoundary (i : Input) (p : Pass) (k len : Nat) (s : State) :
    keepsInputs s (closeAtBoundary i p k len s) :=
  (keepsInputs_fixLength _ _ _ _).trans (keepsInputs_awaitSpill _ _ _)

theorem keepsInputs_closeOpening (i : Input) (p : Pass) (d : Nat) (s : State) :
    keepsInputs s (closeOpening i p d s) := by
  unfold closeOpening
  extract_lets len k spill
  refine keepsInputs_ite (fun _ => keepsInputs_mapPass ..) fun _ =>
    keepsInputs_ite (fun _ => keepsInputs_closeAtBoundary ..) fun _ => ?_
  exact (((keepsInputs_fixLength _ _ _ _).trans (keepsInputs_trimTo _ _ _)).trans (keepsInputs_mapPass _ _ _)).trans
    (keepsInputs_completePass _ _ _ _)

theorem keepsInputs_execClose (i : Input) (d : Nat) (s : State) : keepsInputs s (execClose i d s).1 := by
  unfold execClose
  split
  · exact keepsInputs.refl s
  · split
    · exact keepsInputs.refl s
    · split
      · split
        · next h => exact keepsInputs_closeMeasure _ _ h
        · exact keepsInputs.refl s
      · exact keepsInputs_closeOpening ..
      · exact keepsInputs_cutPass ..

/-! ## The steps of the passes that come about by themselves -/

theorem keepsInputs_reachEnd (i : Input) (s : State) : keepsInputs s (reachEnd i s) := by
  unfold reachEnd
  exact keepsInputs_ite (fun _ => keepsInputs_mapPass ..) fun _ => keepsInputs.refl s

theorem keepsInputs_blendSpill (i : Input) (s : State) : keepsInputs s (blendSpill i s) := by
  unfold blendSpill
  split
  · exact keepsInputs_ite (fun _ => keepsInputs_completePass ..) fun _ => keepsInputs.refl s
  · exact keepsInputs.refl s

theorem keepsInputs_autoClose (s : State) : keepsInputs s (autoClose s) := by
  refine keepsInputs_foldl _ (fun s i => ?_) allInputs s
  split
  · refine keepsInputs_ite (fun h => ?_) fun _ => keepsInputs.refl s
    simp only [State.measureFull, Bool.and_eq_true, decide_eq_true_eq] at h
    exact keepsInputs_closeMeasure _ _ h.1.1
  · exact keepsInputs.refl s

theorem keepsInputs_eighthBoundary (i : Input) (s : State) : keepsInputs s (eighthBoundary i s) := by
  unfold eighthBoundary
  split
  · exact keepsInputs_ite (fun _ => keepsInputs_closeAtBoundary ..) fun _ => keepsInputs.refl s
  · exact keepsInputs.refl s

theorem keepsInputs_carriedClose (i : Input) (s : State) : keepsInputs s (carriedClose i s) := by
  unfold carriedClose
  split
  · exact keepsInputs_ite (fun _ => keepsInputs_closeAtBoundary ..) fun _ => keepsInputs.refl s
  · exact keepsInputs.refl s

theorem keepsInputs_settleEnd (s : State) : keepsInputs s (settleEnd s) :=
  keepsInputs_foldl _ (fun s i => (keepsInputs_reachEnd i s).trans (keepsInputs_blendSpill i _)) allInputs s

theorem keepsInputs_settlePasses (s : State) : keepsInputs s (settlePasses s) :=
  keepsInputs_foldl _ (fun s i => (keepsInputs_eighthBoundary i s).trans (keepsInputs_carriedClose i _)) allInputs s

end Sys2Proof.Machine
end

section
/-! PROOFS. What the bounce engine, the stack operations, the action queue and the hold machine leave as it is inside a
block. -/

namespace Sys2Proof.Machine

/-! ## The bounce engine -/

/-- `u` is `s` but for the layer store, the pool, the bounce engine and its credit, take memory, reply queues and events. -/
structure onlyBounce (s u : State) : Prop where
  cyc : u.cyc = s.cyc
  pse : u.pse = s.pse
  aqu : u.aqu = s.aqu
  mxe : u.mxe = s.mxe
  smn : u.smn = s.smn
  tmc : u.tmc = { s.tmc with credit := u.tmc.credit }
  stopped : u.stopped = s.stopped
  freeIndex : u.freeIndex = s.freeIndex
  pending : u.pending = s.pending
  pointer : u.rqu.pointer = s.rqu.pointer
  runs : ∀ lk, u.linkRuns lk = s.linkRuns lk

theorem onlyBounce.refl (s : State) : onlyBounce s s :=
  ⟨rfl, rfl, rfl, rfl, rfl, rfl, rfl, rfl, rfl, rfl, fun _ => rfl⟩

theorem onlyBounce.trans {s u v : State} (h : onlyBounce s u) (k : onlyBounce u v) : onlyBounce s v where
  cyc := k.cyc.trans h.cyc
  pse := k.pse.trans h.pse
  aqu := k.aqu.trans h.aqu
  mxe := k.mxe.trans h.mxe
  smn := k.smn.trans h.smn
  tmc := by rw [k.tmc, h.tmc]
  stopped := k.stopped.trans h.stopped
  freeIndex := k.freeIndex.trans h.freeIndex
  pending := k.pending.trans h.pending
  pointer := k.pointer.trans h.pointer
  runs lk := (k.runs lk).trans (h.runs lk)

theorem onlyBounce_foldl {α : Type} (f : State → α → State) (h : ∀ s x, onlyBounce s (f s x)) :
    ∀ (xs : List α) (s : State), onlyBounce s (xs.foldl f s)
  | [], s => onlyBounce.refl s
  | x :: xs, s => (h s x).trans (onlyBounce_foldl f h xs (f s x))

theorem onlyBounce_ite {c : Prop} [Decidable c] {s u v : State} (h : onlyBounce s u) (k : onlyBounce s v) :
    onlyBounce s (if c then u else v) := by
  split
  · exact h
  · exact k

theorem onlyBounce.keepsInputs {s u : State} (h : onlyBounce s u) : keepsInputs s u :=
  ⟨⟨by rw [h.cyc]; exact Cyc.keeps.refl _, h.smn, h.stopped, h.freeIndex, h.pending, h.pointer, h.runs⟩,
    fun i => by simp only [State.input, h.pse]⟩

theorem onlyStore.bounce {s u : State} (h : onlyStore s u) : onlyBounce s u := by
  obtain ⟨hc, hp, ha, hx, -, ht, hs, -, hst, hf, hq, hr⟩ := h.fields
  exact ⟨hc, hp, ha, hx, hs, by rw [ht], hst, hf, hq, hr, h.keepsInputs.runs⟩

theorem onlyBounce_emit (b : EventBody) (s : State) : onlyBounce s (emit b s) := (onlyEvents_emit b s).store.bounce

theorem onlyBounce_withBne (s : State) (x : Bne) : onlyBounce s (s.withBne x) :=
  ⟨rfl, rfl, rfl, rfl, rfl, rfl, rfl, rfl, rfl, rfl, fun _ => rfl⟩

theorem onlyBounce_withCredit (s : State) (n : Nat) : onlyBounce s (s.withTmc { s.tmc with credit := n }) :=
  ⟨rfl, rfl, rfl, rfl, rfl, rfl, rfl, rfl, rfl, rfl, fun _ => rfl⟩

theorem onlyBounce_pushReply (lk : Link) (r : Reply) (s : State) : onlyBounce s (pushReply lk r s) := by
  have hr := (keepsInputs_pushReply lk r s).runs
  obtain ⟨hc, -, -, hp, ha, hx, -, ht, hs, -, hst, hf, hq⟩ := State.inner_fields (pushReply_inner lk r s)
  refine ⟨hc, hp, ha, hx, hs, by rw [ht], hst, hf, hq, ?_, hr⟩
  unfold pushReply
  split <;> rfl

theorem onlyBounce_reply (lk : Link) (a b : Byte) (k : Bool) (c : ReplyCode) (p : Payload) (s : State) :
    onlyBounce s (reply lk a b k c p s) := onlyBounce_pushReply ..

theorem onlyBounce_storeBlock (id : LayerId) (pos : Nat) (b : Block) (s : State) :
    onlyBounce s (storeBlock id pos b s) := by
  rw [(storeBlock_mem id pos b s).1]
  exact ⟨rfl, rfl, rfl, rfl, rfl, rfl, rfl, rfl, rfl, rfl, fun _ => rfl⟩

theorem onlyStore_bounceClaim {t : TrackId} {s u : State} {id : LayerId} (h : bounceClaim t s = .ok (id, u)) :
    onlyStore s u := by
  unfold bounceClaim at h
  extract_lets len need s1 at h
  split at h
  · cases h
  · split at h
    · cases h
    · split at h
      · cases h
      · simp only [Except.ok.injEq, Prod.mk.injEq] at h
        rw [← h.2]
        exact ((((onlyStore_reclaimRun _ _ _ s).trans (onlyStore_withLayer _ _ _)).trans (onlyStore_advanceSerial _)).trans
          (onlyStore_withPgp _ _)).trans (onlyStore_lowMark _)

/-- A bounce that starts (R134). -/
theorem onlyBounce_startBounce {t : TrackId} {count : Nat} {mode : BounceMode} {lk : Link} {tag : Byte} {s u : State}
    (h : startBounce t count mode lk tag s = .ok u) : onlyBounce s u := by
  unfold startBounce at h
  split at h
  · cases h
  · extract_lets len sources claimed at h
    have hc : ∀ d x, claimed = .ok (d, x) → onlyStore s x := by
      intro d x hc
      simp only [claimed] at hc
      split at hc
      · cases hc; exact onlyStore.refl s
      · split at hc
        · next id s2 e => cases hc; exact onlyStore_bounceClaim e
        · cases hc
    clear_value claimed
    split at h
    · cases h
    · next dest s1 =>
      simp only [Except.ok.injEq] at h
      subst h
      exact ((hc _ _ rfl).bounce.trans (onlyBounce_withBne _ _)).trans (onlyBounce_withCredit _ _)

theorem onlyBounce_advanceWaiting : ∀ (n : Nat) (s : State), onlyBounce s (advanceWaiting n s)
  | 0, s => onlyBounce.refl s
  | n + 1, s => by
    unfold advanceWaiting
    split
    · exact onlyBounce.refl s
    · next w rest _ =>
      extract_lets _ s1
      have h1 : onlyBounce s s1 := onlyBounce_withBne _ _
      split
      · next s2 e => exact h1.trans (onlyBounce_startBounce e)
      · exact (h1.trans (onlyBounce_reply _ _ _ _ _ _ s1)).trans (onlyBounce_advanceWaiting n _)

theorem onlyBounce_advanceQueue (s : State) : onlyBounce s (advanceQueue s) :=
  onlyBounce_ite (onlyBounce_advanceWaiting _ s) (onlyBounce.refl s)

theorem onlyStore_destSlot (id : LayerId) (slot : Nat) (s : State) : onlyStore s (destSlot id slot s) := by
  unfold destSlot
  split
  · split
    · exact onlyStore.refl s
    · exact (onlyStore_withPgp _ _).trans (onlyStore_withLayer _ _ _)
  · exact onlyStore.refl s

theorem onlyBounce_writeStroke (b : Bounce) (k : Nat) (sums : List Block) (s : State) :
    onlyBounce s (writeStroke b k sums s) := by
  unfold writeStroke
  split
  · exact onlyBounce.refl s
  · exact onlyBounce_foldl _ (fun s x => ((onlyStore_destSlot _ _ s).bounce.trans (onlyBounce_storeBlock _ _ _ _)).trans
      (onlyStore_mapLayer _ _ _).bounce) _ s

theorem onlyStore_commitStack (b : Bounce) (id : LayerId) (s : State) : onlyStore s (commitStack b id s) :=
  (((onlyStore_foldl _ (fun s (x : Source) => onlyStore_dropLayer x.layer s) b.sources s).trans
    (onlyStore_withTrack _ _ _)).trans (onlyStore_mapLayer _ _ _)).trans (onlyStore_lowMark _)

/-- The end of a bounce leaves the engine IDLE with the credit 0 (R139, R141). -/
theorem onlyBounce_idle (s : State) :
    onlyBounce s ((s.withBne { s.bne with active := none, engine := .idle }).withTmc { s.tmc with credit := 0 }) :=
  (onlyBounce_withBne _ _).trans (onlyBounce_withCredit _ _)

theorem onlyBounce_endBounce (b : Bounce) (s : State) : onlyBounce s (endBounce b s) := by
  unfold endBounce
  extract_lets s1 dest s2 s3
  have h1 : onlyBounce s s1 := by
    simp only [s1]
    split
    · exact (onlyStore_commitStack _ _ _).bounce
    · exact onlyBounce.refl s
  have h2 : onlyBounce s s2 := h1.trans (onlyBounce_emit _ _)
  exact (h2.trans (onlyBounce_ite (onlyBounce_reply _ _ _ _ _ _ _) (onlyBounce.refl _))).trans (onlyBounce_idle s3)

theorem onlyBounce_afterStroke (b : Bounce) (len : Nat) (s : State) : onlyBounce s (afterStroke b len s) := by
  unfold afterStroke
  exact onlyBounce_ite ((onlyBounce_withBne s _).trans (onlyBounce_endBounce b _))
    (onlyBounce_ite (onlyBounce_withBne s _) (onlyBounce_withBne s _))

theorem onlyBounce_strokeStep (s : State) : onlyBounce s (strokeStep s) := by
  unfold strokeStep
  split
  · exact onlyBounce.refl s
  · split
    · exact onlyBounce.refl s
    · refine onlyBounce_ite ?_ (onlyBounce.refl s)
      exact (((onlyBounce_withCredit s _).trans (onlyBounce_withBne _ _)).trans (onlyBounce_writeStroke _ _ _ _)).trans
        (onlyBounce_afterStroke _ _ _)

theorem onlyBounce_strokes : ∀ (n : Nat) (s : State), onlyBounce s (strokes n s)
  | 0, s => onlyBounce.refl s
  | n + 1, s => onlyBounce_ite ((onlyBounce_strokeStep s).trans (onlyBounce_strokes n _)) (onlyBounce.refl s)

theorem onlyStore_returnBouncePages (mark : Bool) (b : Bounce) (s : State) :
    onlyStore s (returnBouncePages mark b s) := by
  unfold returnBouncePages
  split
  · exact onlyStore.refl s
  · next id _ =>
    extract_lets s1 s2 _ s3
    have h3 : onlyStore s s3 := ((onlyStore_dropLayer id s).trans (onlyStore_givePages _ _)).trans (onlyStore_withPgp _ _)
    split
    · exact h3.trans (onlyStore_lowMark _)
    · exact h3

theorem onlyBounce_abortBounce (mark : Bool) (cause : BounceAbort) (s : State) :
    onlyBounce s (abortBounce mark cause s) := by
  unfold abortBounce
  split
  · exact onlyBounce.refl s
  · next b _ =>
    extract_lets s1 s2 s3
    have h2 : onlyBounce s s2 := (onlyStore_returnBouncePages mark b s).bounce.trans (onlyBounce_emit _ _)
    exact (h2.trans (onlyBounce_ite (onlyBounce_reply _ _ _ _ _ _ _) (onlyBounce.refl _))).trans (onlyBounce_idle s3)

theorem onlyBounce_abortBounceOn (t : TrackId) (cause : BounceAbort) (s : State) :
    onlyBounce s (abortBounceOn t cause s) := by
  unfold abortBounceOn
  exact onlyBounce_ite (onlyBounce_abortBounce ..) (onlyBounce.refl s)

theorem onlyBounce_cancelWaiting (s : State) : onlyBounce s (cancelWaiting s) :=
  (onlyBounce_withBne s _).trans (onlyBounce_foldl _ (fun s _ => onlyBounce_reply _ _ _ _ _ _ s) _ _)

theorem onlyBounce_bounceDeparture (lk : Link) (s : State) : onlyBounce s (bounceDeparture lk s) := onlyBounce_withBne ..

/-! ## Stacks -/

theorem onlyStore_makeRedoRoom (t : TrackId) (s : State) : onlyStore s (makeRedoRoom t s) := by
  unfold makeRedoRoom
  split
  · exact onlyStore_freeLayers _ s
  · exact onlyStore.refl s

theorem keepsInputs_execUndo (t : TrackId) (s : State) : keepsInputs s (execUndo t s).1 := by
  unfold execUndo
  split
  · exact keepsInputs_abortPass ..
  · split
    · exact keepsInputs.refl s
    · extract_lets redo s1 s2
      split
      · exact keepsInputs.refl s
      · have h2 : onlyBounce s s2 :=
          (onlyStore_makeRedoRoom t s).bounce.trans (onlyBounce_ite (onlyBounce_abortBounce _ _ _) (onlyBounce.refl _))
        exact (h2.trans (onlyStore_parkLayer _ s2).bounce).keepsInputs

theorem onlyStore_execRedo (t : TrackId) (s : State) : onlyStore s (execRedo t s).1 := by
  unfold execRedo
  extract_lets tr
  split
  · exact onlyStore.refl s
  · split
    · exact onlyStore.refl s
    · exact (onlyStore_withTrack _ _ _).trans (onlyStore_mapLayer _ _ _)

theorem onlyStore_parkTopFirst (ids : List LayerId) (s : State) : onlyStore s (parkTopFirst ids s) :=
  onlyStore_foldl _ (fun s id => onlyStore_parkLayer id s) _ s

theorem keepsInputs_abortOn (t : TrackId) (cause : BounceAbort) (s : State) :
    keepsInputs s (abortBounceOn t cause (abortTrack t 4 s)) :=
  (keepsInputs_abortTrack t 4 s).trans (onlyBounce_abortBounceOn _ _ _).keepsInputs

theorem keepsInputs_execClear (t : TrackId) (s : State) : keepsInputs s (execClear t s).1 := by
  unfold execClear
  extract_lets live pins s1 redo s2
  split
  · exact keepsInputs.refl s
  · split
    · exact keepsInputs.refl s
    · exact ((keepsInputs_abortOn t .clear s).trans (onlyStore_freeLayers _ _).keepsInputs).trans
        (onlyStore_parkTopFirst _ _).keepsInputs

theorem keepsInputs_execErase (t : TrackId) (s : State) : keepsInputs s (execErase t s).1 := by
  unfold execErase
  extract_lets tr s1 s2
  split
  · exact keepsInputs.refl s
  · split
    · exact keepsInputs.refl s
    · exact ((keepsInputs_abortOn t .erase s).trans (onlyStore_freeLayers _ _).keepsInputs).trans
        (onlyStore_parkTopFirst _ _).keepsInputs

theorem onlyStore_freeTrack (s : State) (t : TrackId) : onlyStore s (freeTrack s t) :=
  onlyStore_foldl _ (fun s id => onlyStore_dropLayer id s) _ s

theorem onlyStore_withStore (s : State) (x : Lys) (p : Pgp) : onlyStore s { s with lys := x, pgp := p } := onlyEvents.refl _

/-- The tracks given their reset records, and the low mark tested (R49). -/
theorem onlyStore_emptyTracks (s : State) :
    onlyStore s (lowMark { s.withPgp { s.pgp with pinnedTotal := 0 } with
      lys.tracks := Vector.replicate 8 Track.reset }) :=
  (onlyStore_withStore s _ _).trans (onlyStore_lowMark _)

theorem keepsInputs_clearSong (s : State) : keepsInputs s (clearSong s) := by
  have h1 := keepsInputs_foldl _ (fun s i => keepsInputs_abortPass false true i s) allInputs s
  have h2 := h1.trans ((onlyBounce_abortBounce false .songClear _).trans (onlyBounce_cancelWaiting _)).keepsInputs
  exact h2.trans ((onlyStore_foldl _ onlyStore_freeTrack allTracks _).trans (onlyStore_emptyTracks _)).keepsInputs

/-! ## The action queue -/

theorem keepsInputs_cancelQueue (s : State) : keepsInputs s (cancelQueue s) :=
  (keepsInputs_withAqu s _).trans (keepsInputs_foldl _ (fun s _ => keepsInputs_reply _ _ _ _ _ _ s) _ _)

theorem keepsInputs_leaveRunning {s : State} (h : s.cyc.state = .running) : keepsInputs s (leaveRunning s) :=
  keepsInputs_withCyc (Cyc.keeps_leaveRunning _ _ h)

theorem keepsInputs_execStop (s : State) : keepsInputs s (execStop s).1 := by
  unfold execStop
  split
  · next h => exact (keepsInputs_withCyc (Cyc.keeps_toUnset h)).trans (keepsInputs_cancelQueue _)
  · split
    · next h =>
      exact ((keepsInputs_leaveRunning h).trans (keepsInputs_cutAll _ _ _)).trans (keepsInputs_cancelQueue _)
    · exact keepsInputs.refl s

theorem keepsInputs_execAction (a : Action) (d : Nat) (s : State) : keepsInputs s (execAction a d s).1 := by
  cases a with
  | transportStop => exact keepsInputs_execStop s
  | passOpen i t => exact keepsInputs_execOpen ..
  | passClose i => exact keepsInputs_execClose ..
  | layerUndo t => exact keepsInputs_execUndo ..
  | layerRedo t => exact (onlyStore_execRedo t s).keepsInputs
  | trackClear t => exact keepsInputs_execClear ..
  | trackMute t on => exact (onlyStore_withTrack _ _ _).keepsInputs

theorem keepsInputs_execEntry (e : Entry) (s : State) : keepsInputs s (execEntry e s).1 := by
  unfold execEntry
  split
  · split
    · exact keepsInputs_execClose ..
    · exact keepsInputs.refl s
  · exact keepsInputs_execAction ..

theorem keepsInputs_dueEntry (s : State) : keepsInputs s (dueEntry s) := by
  unfold dueEntry
  split
  · exact keepsInputs.refl s
  · exact ((keepsInputs_withAqu s _).trans (keepsInputs_execEntry _ _)).trans (keepsInputs_reply _ _ _ _ _ _ _)

theorem keepsInputs_dueEntries : ∀ (n : Nat) (s : State), keepsInputs s (dueEntries n s)
  | 0, s => keepsInputs.refl s
  | n + 1, s => by
    unfold dueEntries
    exact keepsInputs_ite (fun _ => ((keepsInputs_dueEntry s).trans (onlyBounce_advanceQueue _).keepsInputs).trans
      (keepsInputs_dueEntries n _)) fun _ => keepsInputs.refl s

theorem keepsInputs_takeQuantized (lk : Link) (tag : Byte) (a : Action) (mode : Quantize) (s : State) :
    keepsInputs s (takeQuantized lk tag a mode s).1 := by
  unfold takeQuantized
  split
  · exact keepsInputs.refl s
  · split
    · exact (keepsInputs_withAqu s _).trans (keepsInputs_reply _ _ _ _ _ _ _)
    · split
      · exact keepsInputs.refl s
      · split
        · exact keepsInputs_execAction ..
        · split
          · exact keepsInputs_withAqu ..
          · exact keepsInputs_withAqu ..

/-! ## The hold machine -/

theorem keepsInputs_stopTimeline (s : State) : keepsInputs s (stopTimeline s) := by
  unfold stopTimeline
  split
  · next h => exact (keepsInputs_leaveRunning h).trans (keepsInputs_cancelQueue _)
  · next h =>
    split
    · next hs => exact (keepsInputs_withCyc (Cyc.keeps_heldCount h hs)).trans (keepsInputs_cancelQueue _)
    · exact (keepsInputs_withCyc (Cyc.keeps_toUnset h)).trans (keepsInputs_cancelQueue _)
  · exact keepsInputs.refl s

theorem onlyBounce_pendSuspend (s : State) : onlyBounce s (pendSuspend s) := by
  unfold pendSuspend
  exact onlyBounce_ite (onlyBounce_withBne _ _) (onlyBounce.refl s)

theorem keepsInputs_enterHold (cause : HoldCause) (station : Option Link) (s : State) :
    keepsInputs s (enterHold cause station s) := by
  have h := ((((onlyBounce_strokes 4 s).trans (onlyBounce_advanceQueue _)).keepsInputs.trans
    (keepsInputs_cutAll .hold false _)).trans (keepsInputs_stopTimeline _)).trans (onlyBounce_pendSuspend _).keepsInputs
  exact (h.trans (keepsInputs_withTmc _ _)).trans (keepsInputs_emit _ _)

theorem keepsInputs_takeTrigger (s : State) : keepsInputs s (takeTrigger s) := by
  unfold takeTrigger
  split
  · exact keepsInputs.refl s
  · extract_lets _ s1
    have h1 : keepsInputs s s1 := keepsInputs_withTmc _ _
    exact keepsInputs_ite (fun _ => h1.trans (keepsInputs_enterHold _ _ _)) fun _ => h1

theorem keepsInputs_drain (s : State) : keepsInputs s (drain s) := by
  unfold drain
  exact keepsInputs_ite (fun _ => (keepsInputs_withTmc s _).trans (keepsInputs_emit _ _)) fun _ => keepsInputs.refl s

theorem onlyBounce_unsuspend (s : State) : onlyBounce s (unsuspend s) := by
  unfold unsuspend
  refine onlyBounce_ite ?_ (onlyBounce.refl s)
  split
  · exact onlyBounce.refl s
  · exact onlyBounce_withBne ..

theorem keepsInputs_restart {s : State} (h : s.cyc.state = .paused) : keepsInputs s (restart s) := by
  refine (keepsInputs_withCyc (Cyc.keeps_restart h)).trans (keepsInputs_foldl _ (fun s t => ?_) allTracks _)
  exact keepsInputs_ite (fun _ => keepsInputs.refl s) fun _ => (onlyStore_withTrack s t _).keepsInputs

theorem keepsInputs_wake (s : State) : keepsInputs s (wake s) := by
  unfold wake
  refine keepsInputs_ite (fun _ => ?_) fun _ => keepsInputs.refl s
  extract_lets cause _ s1 restarts s2 s3
  have h1 : keepsInputs s s1 := keepsInputs_withTmc ..
  have h2 : keepsInputs s s2 := h1.trans ((keepsInputs_ite (fun h => keepsInputs_restart (of_decide_eq_true h))
    fun _ => keepsInputs.refl s1).trans (onlyBounce_unsuspend _).keepsInputs)
  have h3 : keepsInputs s s3 := h2.trans (keepsInputs_emit _ s2)
  exact keepsInputs_ite (fun _ => h3.trans (keepsInputs_emitMarks s3)) fun _ => h3

theorem keepsInputs_scheduledStart (s : State) : keepsInputs s (scheduledStart s) := by
  unfold scheduledStart
  refine keepsInputs_ite (fun h => ?_) fun _ => keepsInputs.refl s
  simp only [State.startDue, Bool.and_eq_true, decide_eq_true_eq] at h
  exact keepsInputs_setMarks (Cyc.keeps_scheduled h.1 (by rw [h.2]; rfl))

/-! ## Settling -/

theorem keepsInputs_settleStart (s : State) : keepsInputs s (settleStart s) := by
  have h1 := ((((keepsInputs_settleEnd s).trans (keepsInputs_wake _)).trans (keepsInputs_autoClose _)).trans
    (keepsInputs_scheduledStart _)).trans (keepsInputs_settlePasses _)
  have h2 := (h1.trans (keepsInputs_dueEntries (settlePasses (scheduledStart (autoClose (wake (settleEnd s))))).aqu.queue.length
    _)).trans (onlyBounce_advanceQueue _).keepsInputs
  exact (h2.trans (keepsInputs_ite (fun _ => (onlyBounce_strokes 4 _).keepsInputs) fun _ => keepsInputs.refl _)).trans
    (keepsInputs_drain _)

theorem keepsInputs_settleAll (s : State) : keepsInputs s (settleAll s) := by
  have h1 := ((keepsInputs_settleStart s).trans ((onlyBounce_strokes 4 _).trans (onlyBounce_advanceQueue _)).keepsInputs).trans
    (keepsInputs_drain _)
  unfold settleAll
  extract_lets s1
  exact keepsInputs_ite (fun _ => h1.trans (keepsInputs_takeTrigger _)) fun _ => h1

end Sys2Proof.Machine
end

section
/-! PROOFS. What the steps of the links, the requests, the readings and the boundary make of the timeline; the
invariant of section 1.2, and the constancy of N inside a block. -/

namespace Sys2Proof.Machine

/-- `u` comes of `s` inside one block, as far as the timeline goes. -/
structure keepsTime (s u : State) : Prop where
  cyc : s.cyc.keeps u.cyc

theorem keepsTime.refl (s : State) : keepsTime s s := ⟨Cyc.keeps.refl _⟩

theorem keepsTime.trans {s u v : State} (h : keepsTime s u) (k : keepsTime u v) : keepsTime s v := ⟨h.cyc.trans k.cyc⟩

theorem keepsTime.of_eq {s u : State} (h : u.cyc = s.cyc) : keepsTime s u := ⟨by rw [h]; exact Cyc.keeps.refl _⟩

theorem keepsInputs.time {s u : State} (h : keepsInputs s u) : keepsTime s u := ⟨h.cyc⟩

theorem keepsTime_ite {c : Prop} [Decidable c] {s u v : State} (h : keepsTime s u) (k : keepsTime s v) :
    keepsTime s (if c then u else v) := by
  split
  · exact h
  · exact k

theorem keepsTime_foldl {α : Type} (f : State → α → State) (h : ∀ s x, keepsTime s (f s x)) :
    ∀ (xs : List α) (s : State), keepsTime s (xs.foldl f s)
  | [], s => keepsTime.refl s
  | x :: xs, s => (h s x).trans (keepsTime_foldl f h xs (f s x))

/-! ## The links -/

theorem keepsTime_mapLink (lk : Link) (f : LinkRec → LinkRec) (s : State) : keepsTime s (mapLink lk f s) :=
  keepsTime.of_eq rfl

theorem keepsTime_mapCounters (lk : Link) (f : StationCounters → StationCounters) (s : State) :
    keepsTime s (mapCounters lk f s) := keepsTime_mapLink ..

theorem keepsTime_setSlot (lk : Link) (k : Fin 2) (x : Option FwdSlot) (s : State) : keepsTime s (setSlot lk k x s) :=
  keepsTime_mapLink ..

theorem keepsTime_mapSlot (lk : Link) (k : Fin 2) (f : FwdSlot → FwdSlot) (s : State) :
    keepsTime s (mapSlot lk k f s) := by
  unfold mapSlot
  split
  · exact keepsTime.refl s
  · exact keepsTime_setSlot ..

theorem keepsTime_setAssembly (lk : Link) (a : Assembly) (s : State) : keepsTime s (setAssembly lk a s) :=
  keepsTime_mapLink ..

theorem keepsTime_finishBroadcasts (s : State) : keepsTime s (finishBroadcasts s) :=
  keepsTime.trans (u := { s with slk.broadcasts := s.slk.broadcasts.filter fun b => s.groupOpen b.group })
    (keepsTime.of_eq rfl)
    (keepsTime_foldl (fun s (b : Broadcast) => if b.whole then
      mapCounters b.source (fun c => { c with forwardedFrom := sat32 (c.forwardedFrom + 1) }) s else s)
      (fun s _ => keepsTime_ite (keepsTime_mapCounters _ _ s) (keepsTime.refl s)) _ _)

theorem keepsTime_closeCopies (f : Forwarding) (s : State) : keepsTime s (closeCopies f s) :=
  (keepsTime_foldl closeCopy (fun s _ => keepsTime_ite
    ((keepsTime_setSlot _ _ _ s).trans (keepsTime_mapLink _ _ _)) (keepsTime_setSlot _ _ _ s)) f.copies s).trans
    (keepsTime_finishBroadcasts _)

theorem keepsTime_deliver (lk : Link) (b : EventBody) (info : BlockInfo) (s : State) : keepsTime s (deliver lk b info s) :=
  (onlyEvents_deliver lk b info s).keepsInputs.time

theorem keepsTime_routeFail (lk : Link) (r : RouteReason) (d : Byte) (ls : List Link) (n : Nat) (s : State) :
    keepsTime s (routeFail lk r d ls n s) := by
  unfold routeFail
  exact keepsTime_ite ((keepsTime_mapCounters _ _ s).trans (keepsTime_deliver _ _ _ _)) (keepsTime.refl s)

theorem keepsTime_passedOn (begun : Bool) (n : Nat) (s : State) : keepsTime s (passedOn begun n s).2 := by
  unfold passedOn
  split <;> exact keepsTime.of_eq rfl

theorem keepsTime_tooLong (lk : Link) (f : Forwarding) (s : State) : keepsTime s (tooLong lk f s) :=
  (((keepsTime_passedOn _ _ s).trans (keepsTime_closeCopies _ _)).trans (keepsTime_setAssembly _ _ _)).trans
    (keepsTime_routeFail _ _ _ _ _ _)

theorem keepsTime_passOver (lk : Link) (r : RouteReason) (d : Byte) (ls : List Link) (s : State) :
    keepsTime s (routeFail lk r d ls 0 (setAssembly lk .passOver s)) :=
  (keepsTime_setAssembly _ _ s).trans (keepsTime_routeFail _ _ _ _ _ _)

theorem keepsTime_routeForward (lk : Link) (dest : Byte) (s : State) : keepsTime s (routeForward lk dest s) := by
  unfold routeForward
  split
  · exact keepsTime_passOver ..
  · refine keepsTime_ite (keepsTime_passOver ..) (keepsTime_ite (keepsTime_passOver ..) ?_)
    split
    · exact keepsTime_passOver ..
    · exact (keepsTime_setSlot _ _ _ s).trans (keepsTime_setAssembly _ _ _)

theorem keepsTime_routeBroadcast (lk : Link) (s : State) : keepsTime s (routeBroadcast lk s) := by
  unfold routeBroadcast
  extract_lets copies busy g s2 _ s1
  have h2 : keepsTime s s2 := keepsTime_foldl _ (fun s x => keepsTime_setSlot _ _ _ s) copies s
  clear_value s2
  have h1 : keepsTime s s1 := keepsTime_ite (keepsTime_setAssembly _ _ s) (h2.trans (keepsTime.of_eq rfl))
  exact keepsTime_ite h1 (h1.trans (keepsTime_routeFail _ _ _ _ _ _))

theorem keepsTime_beginPacket (lk : Link) (dest : Byte) (s : State) : keepsTime s (beginPacket lk dest s) := by
  unfold beginPacket
  exact keepsTime_ite (keepsTime_setAssembly ..) (keepsTime_ite (keepsTime_routeBroadcast ..) (keepsTime_routeForward ..))

theorem keepsTime_mapCopies (xs : List (Link × Fin 2)) (f : FwdSlot → FwdSlot) (s : State) :
    keepsTime s (xs.foldl (fun s x => mapSlot x.1 x.2 f s) s) :=
  keepsTime_foldl _ (fun s _ => keepsTime_mapSlot _ _ _ s) xs s

theorem keepsTime_dataByte (lk : Link) (b : Byte) (s : State) : keepsTime s (dataByte lk b s) := by
  unfold dataByte
  split
  · exact keepsTime_beginPacket ..
  · exact keepsTime_setAssembly ..
  · exact keepsTime.refl s
  · exact keepsTime_ite (keepsTime_tooLong ..) ((keepsTime_mapCopies _ _ s).trans (keepsTime_setAssembly _ _ _))

theorem keepsTime_forwardEnd (lk : Link) (s : State) : keepsTime s (forwardEnd lk s) := by
  unfold forwardEnd
  split
  · exact keepsTime.refl s
  · exact keepsTime.refl s
  · exact keepsTime_setAssembly ..
  · extract_lets s1
    have h1 : keepsTime s s1 := (keepsTime_mapCopies _ _ s).trans (keepsTime_setAssembly _ _ _)
    exact keepsTime_ite (h1.trans (keepsTime_mapCounters _ _ _)) h1

theorem keepsTime_forwardFault (lk : Link) (s : State) : keepsTime s (forwardFault lk s) := by
  unfold forwardFault
  split
  · exact keepsTime.refl s
  · exact keepsTime.refl s
  · exact keepsTime_setAssembly ..
  · extract_lets begun s1
    have h1 : keepsTime s s1 := (keepsTime_closeCopies _ s).trans (keepsTime_setAssembly _ _ _)
    exact keepsTime_ite (h1.trans (keepsTime_mapCounters _ _ _)) h1

theorem keepsTime_loseSlot (lk : Link) (k : Fin 2) (s : State) : keepsTime s (loseSlot lk k s) := by
  unfold loseSlot
  split
  · exact keepsTime.refl s
  · exact (((keepsTime_passedOn _ _ s).trans (keepsTime_setSlot _ _ _ _)).trans (keepsTime_mapLink _ _ _)).trans
      (keepsTime_routeFail _ _ _ _ _ _)

theorem keepsTime_dropForward (lk : Link) (s : State) : keepsTime s (dropForward lk s) := by
  unfold dropForward
  split
  · exact (keepsTime_setAssembly _ _ s).trans (keepsTime_closeCopies _ _)
  · exact keepsTime_setAssembly ..

/-- A link leaves RUN (R174): its input's pass is cut, and nothing else of the departure touches the timeline. -/
theorem keepsTime_depart (lk : Link) (cause : RecoveryCause) (char : Nat) (s : State) :
    keepsTime s (depart lk cause char s) := by
  unfold depart
  extract_lets s1 s2 s3
  have h1 : keepsTime s s1 :=
    ((keepsTime_mapLink _ _ s).trans (keepsTime_dropForward _ _)).trans (keepsTime_mapLink _ _ _)
  clear_value s1
  have h2 : keepsTime s s2 :=
    ((h1.trans (keepsTime_loseSlot _ _ _)).trans (keepsTime_loseSlot _ _ _)).trans (keepsTime_finishBroadcasts _)
  clear_value s2
  have h3 : keepsTime s s3 := (h2.trans (keepsTime.of_eq rfl : keepsTime s2 (emptyInput lk s2))).trans
    (keepsInputs_cutPass _ _ _ _).time
  clear_value s3
  exact (h3.trans ((keepsInputs_withAqu s3 _).trans (onlyBounce_bounceDeparture lk _).keepsInputs).time).trans
    (keepsInputs_emit _ _).time

theorem keepsTime_joinDataError (lk : Link) (char : Nat) (s : State) : keepsTime s (joinDataError lk char s) :=
  keepsTime.of_eq rfl

theorem keepsTime_causedError (lk : Link) (cause : RecoveryCause) (char : Nat) (s : State) :
    keepsTime s (causedError lk cause char s) := by
  unfold causedError
  split
  · exact (keepsInputs_settleStart s).time.trans (keepsTime_depart _ _ _ _)
  · exact keepsTime_mapLink ..
  · exact keepsTime_mapLink ..
  · exact keepsTime.refl s

theorem keepsTime_receive (lk : Link) (k : State → State) (s : State) (h : keepsTime s (k s)) :
    keepsTime s (receive lk k s) := by
  unfold receive
  split
  · exact h
  · exact keepsTime_joinDataError ..
  · exact keepsTime_mapLink ..
  · exact keepsTime.refl s

theorem keepsTime_receiveEnd (lk : Link) (k : State → State) (s : State) (h : keepsTime s (k s)) :
    keepsTime s (receiveEnd lk k s) := by
  unfold receiveEnd
  exact keepsTime_ite h (keepsTime_causedError ..)

theorem keepsTime_receptionReply (lk : Link) (r : Byte) (tag : Option Byte) (c : ReplyCode) (s : State) :
    keepsTime s (receptionReply lk r tag c s) :=
  keepsTime.of_eq (State.inner_fields (receptionReply_inner lk r tag c s)).1

theorem keepsTime_arrive (i : Input) (stamp : Nat) (b : Block) (s : State) : keepsTime s (arrive i stamp b s) := by
  unfold arrive
  extract_lets r d again
  split_ifs <;> exact ⟨(keepsHub_withInput ..).cyc⟩

theorem keepsTime_hubPacket (lk : Link) (bytes : List Byte) (overlong : Bool) (s : State) :
    keepsTime s (hubPacket lk bytes overlong s) := by
  unfold hubPacket
  split
  · unfold offerRequest
    exact keepsTime_ite (keepsTime.of_eq rfl) ((keepsTime_mapCounters _ _ s).trans (keepsTime_receptionReply _ _ _ _ _))
  · exact keepsTime_ite (keepsTime_arrive ..) (keepsTime_mapCounters ..)
  · exact keepsTime_mapCounters ..
  · exact (keepsTime_mapCounters _ _ s).trans (keepsTime_receptionReply _ _ _ _ _)

theorem keepsTime_receiveHub (lk : Link) (bytes : List Byte) (s : State) : keepsTime s (receiveHub lk bytes s) :=
  keepsTime_receive _ _ _ (keepsTime_ite ((keepsTime_setAssembly _ _ s).trans (keepsTime_hubPacket _ _ _ _))
    (keepsTime.refl s))

theorem keepsTime_packetEnd (lk : Link) (s : State) : keepsTime s (packetEnd lk s) := by
  unfold packetEnd
  split
  · exact (keepsTime_setAssembly _ _ s).trans (keepsTime_hubPacket _ _ _ _)
  · exact keepsTime_forwardEnd ..

theorem keepsTime_discardFaulted (lk : Link) (s : State) : keepsTime s (discardFaulted lk s) :=
  (keepsTime_setAssembly _ _ s).trans (keepsTime_mapCounters _ _ _)

theorem keepsTime_packetFault (lk : Link) (s : State) : keepsTime s (packetFault lk s) := by
  unfold packetFault
  split
  · exact keepsTime_discardFaulted ..
  · exact keepsTime_forwardFault ..

theorem keepsTime_join (lk : Link) (s : State) : keepsTime s (join lk s) :=
  keepsTime.trans (u := clearInputCounts lk (State.withStation (mapLink lk _ s) lk Settings.reset)) (keepsTime.of_eq rfl)
    (keepsInputs_emit _ _).time

theorem keepsTime_startPacket (lk : Link) (s : State) : keepsTime s (startPacket lk s) := by
  unfold startPacket
  refine keepsTime_ite ?_ (keepsTime.refl s)
  split
  · exact keepsTime.of_eq rfl
  · exact keepsTime.of_eq rfl
  · exact keepsTime.of_eq rfl
  · split
    · exact keepsTime.refl s
    · exact (keepsTime.of_eq rfl : keepsTime s (s.withLink lk _)).trans (keepsTime_mapSlot _ _ _ _)

theorem keepsTime_endPacket (lk : Link) (s : State) : keepsTime s (endPacket lk s) := by
  unfold endPacket
  extract_lets r
  split
  · exact keepsTime.of_eq rfl
  · split
    · next x _ =>
      refine keepsTime_ite ?_ (keepsTime.refl s)
      refine keepsTime.trans (u := markWhole x.group _) (keepsTime.of_eq ?_) (keepsTime_finishBroadcasts _)
      unfold markWhole
      split <;> rfl
    · exact keepsTime.refl s
  · exact keepsTime.refl s

/-! ## The requests -/

/-- A request served: settling, taking and answering keep the timeline, so the owner decides. -/
theorem keepsTime_serve (lk : Link) (c : Instr) (code : Byte) (tag : Option Byte) (ends : Bool) {owner : State → Answer}
    (s : State) (h : ∀ x, keepsTime x (owner x).1) : keepsTime s (serve lk c code tag ends owner s) := by
  unfold serve
  refine keepsTime_ite (keepsTime.refl s) ?_
  extract_lets s1
  have h1 : keepsTime s s1 := (keepsInputs_settleStart s).time
  have h2 : keepsTime s1 (taken lk ends s1) := keepsTime.of_eq (taken_fields lk ends s1).1
  exact keepsTime_ite (((h1.trans h2).trans (h _)).trans (keepsInputs_pushReply _ _ _).time) (keepsTime.refl s)

theorem keepsTime_outsideHold {s : State} {owner : State → Answer} (h : keepsTime s (owner s).1) :
    keepsTime s (outsideHold s owner).1 := by
  unfold outsideHold
  split
  · exact keepsTime.refl s
  · exact h

theorem keepsTime_answer {s u : State} {c : ReplyCode} (h : keepsTime s u) : keepsTime s (answer u c).1 := h

theorem beatsArg_legal {x : Byte} {b : Nat} (h : beatsArg x = some b) : 1 ≤ b ∧ b ≤ 16 := by
  unfold beatsArg at h
  split at h
  · next hb => cases h; exact hb
  · cases h

theorem keepsTime_ownCycleSet (length : Word16) (beats : Byte) (s : State) :
    keepsTime s (ownCycleSet length beats s).1 := by
  unfold ownCycleSet
  split
  · exact keepsTime.refl s
  · next b hb =>
    obtain ⟨h1, h2⟩ := beatsArg_legal hb
    apply keepsTime_outsideHold
    split
    · next h => exact (keepsInputs_setMarks (Cyc.keeps_startCycle _ h h1 h2)).time
    · exact keepsTime.refl s

theorem keepsTime_ownTap (beats : Byte) (s : State) : keepsTime s (ownTap beats s).1 := by
  unfold ownTap
  split
  · exact keepsTime.refl s
  · next b hb =>
    apply keepsTime_outsideHold
    split
    · next h => exact ⟨Cyc.keeps_firstTap h hb⟩
    · split
      · next h =>
        simp only [Bool.and_eq_true, decide_eq_true_eq, Option.isNone_iff_eq_none] at h
        exact ⟨Cyc.keeps_nextTap h.1 h.2 hb⟩
      · exact keepsTime.refl s

theorem keepsTime_takeQuantized (lk : Link) (tag : Byte) (a : Action) (mode : Quantize) (s : State) :
    keepsTime s (takeQuantized lk tag a mode s).1 := (keepsInputs_takeQuantized lk tag a mode s).time

theorem keepsTime_ownTransportStop (lk : Link) (tag q : Byte) (s : State) :
    keepsTime s (ownTransportStop lk tag q s).1 := by
  unfold ownTransportStop
  split
  · exact keepsTime.refl s
  · exact keepsTime_takeQuantized ..

theorem keepsTime_ownTransportStart (q : Byte) (s : State) : keepsTime s (ownTransportStart q s).1 := by
  unfold ownTransportStart
  split
  · exact keepsTime.refl s
  · apply keepsTime_outsideHold
    split
    · next h => exact keepsTime_answer ((keepsInputs_restart h).trans (keepsInputs_emitMarks _)).time
    · exact keepsTime.refl s

theorem keepsTime_ownSongClear (s : State) : keepsTime s (ownSongClear s).1 := by
  apply keepsTime_outsideHold
  extract_lets stops s1 _ s2
  have h1 : keepsTime s s1 := ((onlyEvents_releaseMarks s).keepsInputs.trans (keepsInputs_clearSong _)).time
  clear_value s1
  have h2 : keepsTime s s2 := h1.trans ⟨Cyc.keeps_toUnset_zero s1.cyc⟩
  exact keepsTime_answer (keepsTime_ite (h2.trans (keepsInputs_cancelQueue s2).time) h2)

theorem keepsTime_ownPassOpen (lk : Link) (tag i t q : Byte) (s : State) :
    keepsTime s (ownPassOpen lk tag i t q s).1 := by
  unfold ownPassOpen
  split
  · exact keepsTime_takeQuantized ..
  · exact keepsTime.refl s

theorem keepsTime_ownPassClose (lk : Link) (tag i q : Byte) (s : State) :
    keepsTime s (ownPassClose lk tag i q s).1 := by
  unfold ownPassClose
  split
  · exact keepsTime_takeQuantized ..
  · exact keepsTime.refl s

theorem keepsTime_ownOnTrack (lk : Link) (tag : Byte) (f : TrackId → Action) (t q : Byte) (s : State) :
    keepsTime s (ownOnTrack lk tag f t q s).1 := by
  unfold ownOnTrack
  split
  · exact keepsTime_takeQuantized ..
  · exact keepsTime.refl s

theorem keepsTime_ownTrackMute (lk : Link) (tag t q x : Byte) (s : State) :
    keepsTime s (ownTrackMute lk tag t q x s).1 := by
  unfold ownTrackMute
  split
  · exact keepsTime_takeQuantized ..
  · exact keepsTime.refl s

theorem keepsTime_ownTrackErase (t : Byte) (s : State) : keepsTime s (ownTrackErase t s).1 := by
  unfold ownTrackErase
  split
  · exact keepsTime.refl s
  · exact keepsTime_outsideHold (keepsInputs_execErase _ s).time

/-- The requests whose owners leave the timeline record as it is. -/
theorem ownTrackLevel_cyc (t : Byte) (v : Word16) (s : State) : (ownTrackLevel t v s).1.cyc = s.cyc := by
  unfold ownTrackLevel outsideHold
  split
  · rfl
  · split <;> rfl

theorem ownTrackRoute_cyc (t r : Byte) (s : State) : (ownTrackRoute t r s).1.cyc = s.cyc := by
  unfold ownTrackRoute outsideHold
  split
  · split <;> rfl
  · rfl

theorem ownLayerLevel_cyc (l : Byte) (v : Word16) (s : State) : (ownLayerLevel l v s).1.cyc = s.cyc := by
  unfold ownLayerLevel outsideHold
  split
  · rfl
  · split
    · rfl
    · beta_reduce
      split
      · rfl
      · split_ifs <;> rfl

theorem pinOn_cyc (id : LayerId) (s : State) : (pinOn id s).1.cyc = s.cyc := by
  unfold pinOn
  split
  · rfl
  · split_ifs <;> rfl

theorem pinOff_cyc (id : LayerId) (s : State) : (pinOff id s).1.cyc = s.cyc := by
  unfold pinOff
  split
  · rfl
  · split_ifs <;> rfl

theorem ownLayerPin_cyc (l x : Byte) (s : State) : (ownLayerPin l x s).1.cyc = s.cyc := by
  unfold ownLayerPin outsideHold
  split
  · split
    · rfl
    · split
      · exact pinOn_cyc ..
      · exact pinOff_cyc ..
  · rfl

theorem keepsTime_ownBounce (lk : Link) (tag t j m : Byte) (s : State) : keepsTime s (ownBounce lk tag t j m s).1 := by
  unfold ownBounce
  split
  · apply keepsTime_outsideHold
    split
    · exact keepsTime.refl s
    · split
      · split
        · next h => exact (onlyBounce_startBounce h).keepsInputs.time
        · exact keepsTime.refl s
      · exact keepsTime.of_eq rfl
  · exact keepsTime.refl s

theorem ownBusLevel_cyc (b : Byte) (v : Word16) (s : State) : (ownBusLevel b v s).1.cyc = s.cyc := by
  unfold ownBusLevel; split <;> rfl

theorem ownMonitorSet_cyc (i : Byte) (a b c d : Word16) (s : State) : (ownMonitorSet i a b c d s).1.cyc = s.cyc := by
  unfold ownMonitorSet; split <;> rfl

theorem ownReturnSet_cyc (lk : Link) (r : Byte) (s : State) : (ownReturnSet lk r s).1.cyc = s.cyc := by
  unfold ownReturnSet; split <;> rfl

theorem ownQuietSet_cyc (lk : Link) (x : Byte) (s : State) : (ownQuietSet lk x s).1.cyc = s.cyc := by
  unfold ownQuietSet; split <;> rfl

theorem keepsTime_ownHold (lk : Link) (s : State) : keepsTime s (ownHold lk s).1 := by
  unfold ownHold
  split
  · exact keepsTime_answer (keepsInputs_enterHold _ _ s).time
  · exact keepsTime.refl s

theorem ownResume_cyc (s : State) : (ownResume s).1.cyc = s.cyc := by
  unfold ownResume; split_ifs <;> rfl

theorem ownSupplyLimits_cyc (t k : Word16) (s : State) : (ownSupplyLimits t k s).1.cyc = s.cyc := by
  unfold ownSupplyLimits
  extract_lets x y
  split <;> rfl

theorem ownReadTrack_cyc (t : Byte) (s : State) : (ownReadTrack t s).1.cyc = s.cyc := by
  unfold ownReadTrack; split <;> rfl

theorem ownReadLayer_cyc (l : Byte) (s : State) : (ownReadLayer l s).1.cyc = s.cyc := by
  unfold ownReadLayer; split <;> rfl

theorem ownReadStation_cyc (n : Byte) (s : State) : (ownReadStation n s).1.cyc = s.cyc := by
  unfold ownReadStation; split <;> rfl

theorem ownUnknown_cyc (body : List Byte) (o : Bool) (s : State) : (ownUnknown body o s).1.cyc = s.cyc := by
  unfold ownUnknown; split_ifs <;> rfl

/-- HUB_RESET leaves N counting (R188). -/
theorem keepsTime_resetBlocks (s : State) : keepsTime s (resetBlocks s) := by
  unfold resetBlocks resetLinks
  exact keepsTime.trans ⟨Cyc.keeps_hubReset s.cyc⟩
    (keepsTime_foldl _ (fun s lk => keepsTime_mapLink lk _ s) allLinks _)

theorem keepsInputs_cancelOwed (s : State) : keepsInputs s (cancelOwed s) := by
  unfold cancelOwed
  extract_lets s1 s2
  have h1 : keepsInputs s s1 := keepsInputs_cancelQueue s
  have h2 : keepsInputs s s2 := by
    refine h1.trans ?_
    simp only [s2]
    split
    · exact keepsInputs_ite (fun _ => keepsInputs_reply ..) fun _ => keepsInputs.refl _
    · exact keepsInputs.refl _
  exact h2.trans (onlyBounce_cancelWaiting s2).keepsInputs

theorem keepsTime_ownHubReset (lk : Link) (s : State) : keepsTime s (ownHubReset lk s).1 := by
  have h := (keepsInputs_cancelOwed s).time.trans (keepsTime_resetBlocks _)
  have h1 (x : State) : keepsTime x (emitRestarted lk x) := (keepsInputs_emit _ x).time
  have h2 (x : State) : keepsTime x (emitResetActive x) := (keepsInputs_emit _ x).time
  unfold ownHubReset
  extract_lets s1 first s2
  have h3 : keepsTime s s2 := h.trans (.of_eq rfl)
  clear_value s2
  split
  · apply keepsTime_answer
    exact keepsTime_ite ((h3.trans (h1 _)).trans (h2 _)) ((h3.trans (h2 _)).trans (h1 _))
  · exact keepsTime_answer (h.trans (h1 _))

/-! ## The readings -/

theorem keepsTime_takeReading (v : Nat) (c : Int) (o : HandOff) (s : State) : keepsTime s (takeReading v c o s) := by
  have hs (i : BlockInfo) (old : Supply) (x : State) : keepsTime x (emitSupply i old v x) :=
    keepsTime_ite (keepsTime.refl x) (keepsInputs_emitAt _ _ x).time
  have ht (i : BlockInfo) (old : Thermal) (x : State) : keepsTime x (emitThermal i old c x) :=
    keepsTime_ite (keepsTime.refl x) (keepsInputs_emitAt _ _ x).time
  unfold takeReading
  extract_lets late block info s1
  have h1 : keepsTime s s1 := by
    refine keepsTime.of_eq ?_
    simp only [s1, handTrigger]
    split <;> rfl
  exact keepsTime_ite ((h1.trans (ht _ _ _)).trans (hs _ _ _)) ((h1.trans (hs _ _ _)).trans (ht _ _ _))

/-! ## The boundary -/

theorem keepsInputs_closeAccount (s : State) : keepsInputs s (closeAccount s) := by
  unfold closeAccount
  exact keepsInputs_ite (fun _ => keepsInputs.refl s) fun _ => keepsInputs_withTmc ..

theorem keepsInputs_noteClip (bus : Bus) (sums : Block) (s : State) : keepsInputs s (noteClip bus sums s) := by
  unfold noteClip
  extract_lets frames count last send last' _ s1
  have h1 : keepsInputs s s1 := keepsInputs_withMxe ..
  exact keepsInputs_ite (fun _ => keepsInputs.refl s) fun _ =>
    keepsInputs_ite (fun _ => h1.trans (keepsInputs_emit _ _)) fun _ => h1

theorem keepsInputs_noteShed (n c a : Nat) (s : State) : keepsInputs s (noteShed n c a s) := by
  unfold noteShed
  extract_lets short _ s1
  have h1 : keepsInputs s s1 := keepsInputs_withMxe ..
  exact keepsInputs_ite (fun _ => h1) fun _ => h1.trans (keepsInputs_emit _ _)

theorem keepsInputs_placeReturn (a b : Block) (s : State) (lk : Link) : keepsInputs s (placeReturn a b s lk) := by
  unfold placeReturn
  extract_lets r c place
  have h (bus : Bus) (x : Block) : keepsInputs s (place bus x) := keepsInputs_withLink rfl
  refine keepsInputs_ite (fun _ => ?_) fun _ => keepsInputs.refl s
  split
  · exact keepsInputs.refl s
  · exact h _ _
  · exact h _ _

theorem keepsInputs_mixBlock (resolved : List (Input × Block)) (s : State) : keepsInputs s (mixBlock resolved s) := by
  have h (x : State) (n c a : Nat) (p q : Block) : keepsInputs x (noteClip .b p (noteClip .a q (noteShed n c a x))) :=
    ((keepsInputs_noteShed n c a x).trans (keepsInputs_noteClip .a q _)).trans (keepsInputs_noteClip .b p _)
  exact ((keepsInputs_withMxe s _).trans (h _ _ _ _ _ _)).trans (keepsInputs_foldl _ (keepsInputs_placeReturn _ _) _ _)

theorem keepsInputs_noteSpill (s : State) (i : Input) : keepsInputs s (noteSpill s i) := keepsInputs_mapPass ..

theorem keepsInputs_writeInput (f : Input → Block) (s : State) (i : Input) : keepsInputs s (writeInput f s i) :=
  ((keepsInputs_backfillCopy i s).trans (keepsInputs_liveWrite _ _ _)).trans (keepsInputs_endCutBackfill _ _)

theorem keepsHub_resolveInput (s : State) (i : Input) : keepsHub s (resolveInput s i) := by
  unfold resolveInput
  extract_lets r stamp n s1
  have h1 : keepsHub s s1 := keepsHub_withInput ..
  split
  · exact keepsHub_withInput ..
  · split
    · split
      · exact h1.trans (keepsInputs_emit _ s1).tokeepsHub
      · exact h1
    · exact keepsHub_withInput ..

theorem keepsHub_pushRing (f : Input → Block) (s : State) (i : Input) : keepsHub s (pushRing f s i) := keepsHub_withInput ..

theorem keepsHub_finishBlock (order : List Input) (s : State) : keepsHub s (finishBlock order s) := by
  unfold finishBlock
  extract_lets resolved s1 s2
  have h1 : keepsHub s s1 := (keepsHub_foldl _ keepsHub_resolveInput _ s).trans
    (keepsInputs_foldl _ keepsInputs_noteSpill _ _).tokeepsHub
  have h2 : keepsHub s s2 := (h1.trans (keepsInputs_foldl _ (keepsInputs_writeInput resolved) _ s1).tokeepsHub).trans
    (keepsHub_foldl _ (keepsHub_pushRing resolved) _ _)
  exact (h2.trans (keepsInputs_mixBlock _ s2).tokeepsHub).trans (keepsInputs_closeAccount _).tokeepsHub

/-- The state of the new block before its marks (R1, R15, R111, R149, R161). -/
def newPeriod (s : State) : State :=
  let s1 := allInputs.foldl newBlock ((syncHandOffs s).withSmn s.smn.advance)
  s1.withCyc (s1.cyc.tick s.info)

theorem nextBlock_eq (s : State) : nextBlock s = emitMarks (newPeriod s) := rfl

theorem newBlocks_cyc (s : State) : (allInputs.foldl newBlock s).cyc = s.cyc := by simp [allInputs, newBlock]

theorem newPeriod_cyc (s : State) : (newPeriod s).cyc = s.cyc.tick s.info := by
  rw [newPeriod, State.withCyc_cyc, newBlocks_cyc]
  rfl

theorem exec_blockBoundary {s : State} (h : s.stopped = false) (order : List Input) :
    exec (.blockBoundary order) s = .next (nextBlock (finishBlock order (settleAll s))) := by
  simp [exec, execBlockBoundary, h]

theorem legal_blockBoundary {order : List Input} {s t : State} (hl : s.cyc.legal)
    (h : exec (.blockBoundary order) s = .next t) : t.cyc.legal := by
  cases hs : s.stopped with
  | true =>
    simp only [exec, execBlockBoundary, hs, if_true, Host.Outcome.next.injEq] at h
    rw [← h]
    exact hl
  | false =>
    rw [exec_blockBoundary hs, Host.Outcome.next.injEq] at h
    have h1 := (keepsHub_finishBlock order _).cyc.2 ((keepsInputs_settleAll s).cyc.2 hl)
    rw [← h, nextBlock_eq]
    refine (keepsInputs_emitMarks _).cyc.2 ?_
    rw [newPeriod_cyc]
    exact Cyc.legal_tick _ h1

end Sys2Proof.Machine
end

section
/-! PROOFS. Each command inside a block keeps N and the legal timeline. -/

namespace Sys2Proof.Machine

/-! ## The commands -/

/-- Inside a block, which no command but the boundary, a power-on reset, and a brownout or its end leaves, N is constant and
the timeline legal. -/
theorem exec_keepsTime {c : Instr} {s t : State} (h : exec c s = .next t) (hb : ∀ order, c ≠ .blockBoundary order)
    (hp : c ≠ .powerOnReset) (hr : ∀ v x o, c = .supplyReading v x o → 3300 ≤ v)
    (he : ∀ v, c = .brownoutEnd v → v < 3300) : keepsTime s t := by
  have start := (keepsInputs_settleEnd s).time
  cases c with
  | cycleSet => cases h; exact keepsTime_serve _ _ _ _ _ s (keepsTime_ownCycleSet _ _)
  | tap => cases h; exact keepsTime_serve _ _ _ _ _ s (keepsTime_ownTap _)
  | transportStop => cases h; exact keepsTime_serve _ _ _ _ _ s (keepsTime_ownTransportStop _ _ _)
  | transportStart => cases h; exact keepsTime_serve _ _ _ _ _ s (keepsTime_ownTransportStart _)
  | songClear => cases h; exact keepsTime_serve _ _ _ _ _ s keepsTime_ownSongClear
  | passOpen => cases h; exact keepsTime_serve _ _ _ _ _ s (keepsTime_ownPassOpen _ _ _ _ _)
  | passClose => cases h; exact keepsTime_serve _ _ _ _ _ s (keepsTime_ownPassClose _ _ _ _)
  | layerUndo => cases h; exact keepsTime_serve _ _ _ _ _ s (keepsTime_ownOnTrack _ _ _ _ _)
  | layerRedo => cases h; exact keepsTime_serve _ _ _ _ _ s (keepsTime_ownOnTrack _ _ _ _ _)
  | trackMute => cases h; exact keepsTime_serve _ _ _ _ _ s (keepsTime_ownTrackMute _ _ _ _ _)
  | trackClear => cases h; exact keepsTime_serve _ _ _ _ _ s (keepsTime_ownOnTrack _ _ _ _ _)
  | trackErase => cases h; exact keepsTime_serve _ _ _ _ _ s (keepsTime_ownTrackErase _)
  | trackLevel => cases h; exact keepsTime_serve _ _ _ _ _ s fun x => .of_eq (ownTrackLevel_cyc _ _ x)
  | trackRoute => cases h; exact keepsTime_serve _ _ _ _ _ s fun x => .of_eq (ownTrackRoute_cyc _ _ x)
  | layerLevel => cases h; exact keepsTime_serve _ _ _ _ _ s fun x => .of_eq (ownLayerLevel_cyc _ _ x)
  | layerPin => cases h; exact keepsTime_serve _ _ _ _ _ s fun x => .of_eq (ownLayerPin_cyc _ _ x)
  | bounce => cases h; exact keepsTime_serve _ _ _ _ _ s (keepsTime_ownBounce _ _ _ _ _)
  | busLevel => cases h; exact keepsTime_serve _ _ _ _ _ s fun x => .of_eq (ownBusLevel_cyc _ _ x)
  | monitorSet => cases h; exact keepsTime_serve _ _ _ _ _ s fun x => .of_eq (ownMonitorSet_cyc _ _ _ _ _ x)
  | graceSet => cases h; exact keepsTime_serve _ _ _ _ _ s fun x => .of_eq rfl
  | returnSet => cases h; exact keepsTime_serve _ _ _ _ _ s fun x => .of_eq (ownReturnSet_cyc _ _ x)
  | eventsSet => cases h; exact keepsTime_serve _ _ _ _ _ s fun x => .of_eq rfl
  | quietSet => cases h; exact keepsTime_serve _ _ _ _ _ s fun x => .of_eq (ownQuietSet_cyc _ _ x)
  | hold => cases h; exact keepsTime_serve _ _ _ _ _ s (keepsTime_ownHold _)
  | resume => cases h; exact keepsTime_serve _ _ _ _ _ s fun x => .of_eq (ownResume_cyc x)
  | supplyLimits => cases h; exact keepsTime_serve _ _ _ _ _ s fun x => .of_eq (ownSupplyLimits_cyc _ _ x)
  | readCycle => cases h; exact keepsTime_serve _ _ _ _ _ s fun x => .of_eq rfl
  | readTrack => cases h; exact keepsTime_serve _ _ _ _ _ s fun x => .of_eq (ownReadTrack_cyc _ x)
  | readLayer => cases h; exact keepsTime_serve _ _ _ _ _ s fun x => .of_eq (ownReadLayer_cyc _ x)
  | readPool => cases h; exact keepsTime_serve _ _ _ _ _ s fun x => .of_eq rfl
  | readStation => cases h; exact keepsTime_serve _ _ _ _ _ s fun x => .of_eq (ownReadStation_cyc _ x)
  | readHub => cases h; exact keepsTime_serve _ _ _ _ _ s fun x => .of_eq rfl
  | hubReset => cases h; exact keepsTime_serve _ _ _ _ _ s (keepsTime_ownHubReset _)
  | unknownRequest => cases h; exact keepsTime_serve _ _ _ _ _ s fun x => .of_eq (ownUnknown_cyc _ _ x)
  | blockBoundary order => exact absurd rfl (hb order)
  | scheduledStart => cases h; exact keepsTime_ite (.refl s) (start.trans (keepsInputs_scheduledStart _).time)
  | measureAutoClose => cases h; exact keepsTime_ite (.refl s) (start.trans (keepsInputs_autoClose _).time)
  | openPassEighthBoundary => cases h; exact keepsTime_ite (.refl s) (start.trans (keepsInputs_eighthBoundary _ _).time)
  | carriedClose => cases h; exact keepsTime_ite (.refl s) (start.trans (keepsInputs_carriedClose _ _).time)
  | passReachesEnd => cases h; exact keepsTime_ite (.refl s) (keepsInputs_reachEnd _ s).time
  | spillBlend => cases h; exact keepsTime_ite (.refl s) (keepsInputs_blendSpill _ s).time
  | cutBackfillEnd =>
    cases h
    exact keepsTime_ite (.refl s) ((keepsInputs_settleStart s).trans (keepsInputs_finishCutBackfill _ _)).time
  | dueEntryExecute =>
    cases h
    exact keepsTime_ite (.refl s) ((start.trans (keepsInputs_scheduledStart _).time).trans
      (keepsInputs_dueEntries _ _).time)
  | bounceStrokeComplete =>
    cases h
    exact keepsTime_ite (.refl s) (keepsTime_ite (start.trans (onlyBounce_strokeStep _).keepsInputs.time) start)
  | bounceQueueAdvance =>
    cases h
    exact keepsTime_ite (.refl s) (start.trans (onlyBounce_advanceQueue _).keepsInputs.time)
  | holdEntry =>
    cases h
    exact keepsTime_ite (.refl s) ((keepsInputs_settleStart s).trans (keepsInputs_takeTrigger _)).time
  | drainComplete =>
    cases h
    exact keepsTime_ite (.refl s) ((keepsTime_ite (start.trans
      (onlyBounce_strokes 4 _).keepsInputs.time) start).trans (keepsInputs_drain _).time)
  | wakeEnd => cases h; exact keepsTime_ite (.refl s) (start.trans (keepsInputs_wake _).time)
  | supplyReading v x o =>
    have hv := hr v x o rfl
    cases h
    refine keepsTime_ite (keepsTime.refl s) ?_
    rw [if_neg (by omega)]
    exact keepsTime_takeReading ..
  | brownoutEnd v =>
    have hv := he v rfl
    cases h
    refine keepsTime_ite ?_ (keepsTime.refl s)
    rw [if_neg (by omega)]
    exact keepsTime.of_eq rfl
  | powerOnReset => exact absurd rfl hp
  | inputBlock => cases h; exact keepsTime_ite (.refl s) (keepsTime_receiveHub ..)
  | requestPacket => cases h; exact keepsTime_ite (.refl s) (keepsTime_receiveHub ..)
  | unknownPacket => cases h; exact keepsTime_ite (.refl s) (keepsTime_receiveHub ..)
  | hubPacketFaultEnd =>
    cases h
    exact keepsTime_ite (.refl s) (keepsTime_receive _ _ _ (keepsTime_ite
      (keepsTime_discardFaulted ..) (keepsTime.refl s)))
  | linkError lk cause char =>
    cases h
    refine keepsTime_ite (.refl s) ?_
    dsimp only
    split
    · exact keepsTime_ite (keepsTime.refl s) (keepsTime_causedError ..)
    · split
      · exact keepsTime_joinDataError ..
      · exact keepsTime_mapLink ..
      · exact keepsTime.refl s
      · exact keepsTime.refl s
  | linkSilence => cases h; exact keepsTime_ite (.refl s) (keepsTime_causedError ..)
  | recoverEnd => cases h; exact keepsTime_ite (.refl s) (keepsTime_ite (keepsTime_mapLink ..) (keepsTime.refl s))
  | listenFillCount => cases h; exact keepsTime_ite (.refl s) (keepsTime_ite (keepsTime_mapLink ..) (keepsTime.refl s))
  | freshJoin => cases h; exact keepsTime_ite (.refl s) (keepsTime_ite (keepsTime_join ..) (keepsTime.refl s))
  | forwardRoute =>
    cases h
    exact keepsTime_ite (.refl s) (keepsTime_receive _ _ _ (keepsTime_ite
      (keepsTime_beginPacket ..) (keepsTime.refl s)))
  | broadcastRoute =>
    cases h
    exact keepsTime_ite (.refl s) (keepsTime_receive _ _ _ (keepsTime_ite
      (keepsTime_routeBroadcast ..) (keepsTime.refl s)))
  | forwardEnd => cases h; exact keepsTime_ite (.refl s) (keepsTime_receiveEnd _ _ _ (keepsTime_packetEnd ..))
  | forwardFaultEnd => cases h; exact keepsTime_ite (.refl s) (keepsTime_receiveEnd _ _ _ (keepsTime_packetFault ..))
  | forwardTooLong =>
    cases h
    refine keepsTime_ite (.refl s) (keepsTime_receive _ _ _ ?_)
    unfold closeTooLong
    split
    · exact keepsTime_ite (keepsTime_tooLong ..) (keepsTime.refl s)
    · exact keepsTime.refl s
  | transmitStart =>
    cases h
    exact keepsTime_ite (.refl s) (keepsTime_ite (keepsTime_mapLink ..) (keepsTime_startPacket ..))
  | transmitEnd => cases h; exact keepsTime_ite (.refl s) (keepsTime_endPacket ..)
  | forwardDataByte => cases h; exact keepsTime_ite (.refl s) (keepsTime_receive _ _ _ (keepsTime_dataByte ..))

/-- Settles O9: every other command works inside one block. -/
theorem blockNumberMovesOnlyAtTheBoundary : Obligations.BlockNumberMovesOnlyAtTheBoundary :=
  fun _ _ _ h hb hp hr he => (exec_keepsTime h hb hp hr he).cyc.1

/-- A command keeps the timeline legal: the boundary by its advance, a power-on by the reset record, and every other as a
step inside one block. -/
theorem exec_legal {c : Instr} {s t : State} (hl : s.cyc.legal) (h : exec c s = .next t) : t.cyc.legal := by
  have reset : (powerOn s).cyc.legal := Cyc.reset_legal ⟨0, none, 0⟩ (by decide : 0 < 4294967296)
  by_cases hb : ∃ order, c = .blockBoundary order
  · obtain ⟨order, rfl⟩ := hb
    exact legal_blockBoundary hl h
  by_cases hp : c = .powerOnReset
  · subst hp
    cases h
    exact reset
  by_cases hr : ∃ v x o, c = .supplyReading v x o ∧ v < 3300
  · obtain ⟨v, x, o, rfl, hv⟩ := hr
    cases h
    rw [if_pos hv]
    split
    · exact hl
    · exact reset
  by_cases he : ∃ v, c = .brownoutEnd v ∧ 3300 ≤ v
  · obtain ⟨v, rfl, hv⟩ := he
    cases h
    rw [if_pos hv]
    split
    · exact reset
    · exact hl
  refine (exec_keepsTime h (fun order e => hb ⟨order, e⟩) hp (fun v x o e => ?_) fun v e => ?_).cyc.2 hl
  · exact Nat.le_of_not_lt fun hv => hr ⟨v, x, o, e, hv⟩
  · exact Nat.lt_of_not_le fun hv => he ⟨v, e, hv⟩

/-- Settles O1: by the definition of a step. -/
theorem stepRunsTheFrontCommand : Obligations.StepRunsTheFrontCommand :=
  ⟨fun _ _ _ => rfl, fun s h => by rw [step, h]⟩

/-- Settles O4: the queue's rest is no part of the timeline, and the front command keeps it legal. -/
theorem stepKeepsTimelineLegal : Obligations.StepKeepsTimelineLegal := by
  intro s t hl h
  unfold step at h
  split at h
  · cases h
    exact hl
  · next c rest _ => exact exec_legal (s := { s with pending := rest }) hl h

end Sys2Proof.Machine
end

section
/-! PROOFS. The state after power-on reset meets the six invariants. -/

namespace Sys2Proof.Machine

theorem reset_track (t : TrackId) : State.reset.track t = Track.reset := by
  simp [State.track, State.reset, Lys.reset]

theorem reset_layer (id : LayerId) : State.reset.layer id = none := by
  simp [State.layer, State.reset, Lys.reset]

theorem reset_pass (i : Input) : State.reset.pass i = none := by
  have h : Pse.reset.inputs[i] = InputRec.reset := Vector.getElem_replicate _
  exact congrArg InputRec.pass h

/-- No bounce is active or waits after reset (R132). -/
theorem reset_bounce : State.reset.bne.active = none ∧ State.reset.bne.waiting = [] := ⟨rfl, rfl⟩

theorem reset_link (lk : Link) : State.reset.link lk = LinkRec.reset := by
  simp [State.link, State.reset, Slk.reset]

/-- No record has a page after reset. -/
theorem reset_mappedPages : State.reset.mappedPages = [] := by
  simp [State.mappedPages, reset_layer]

/-- The free list holds every page after reset (R52). -/
theorem reset_pagesPlaced : State.reset.pagesPlaced := by
  unfold State.pagesPlaced
  have h : State.reset.pgp.reserved = [] := rfl
  have hf : State.reset.pgp.free = (List.range 4096).map (Fin.ofNat 4096) := by simp only [State.reset, Pgp.reset]
  rw [reset_mappedPages, h, List.append_nil, List.append_nil, hf]

theorem reset_layersListed : State.reset.layersListed := by
  refine ⟨fun t => ?_, fun id l h => ?_⟩
  · rw [reset_track]
    simp [Track.reset]
  · rw [reset_layer] at h
    cases h

theorem reset_storeLegal : State.reset.storeLegal := by
  refine ⟨reset_layersListed, ⟨by decide, ?_⟩, ⟨?_, by decide, ?_⟩, ?_⟩
  · intro id l h
    rw [reset_layer] at h
    cases h
  · simp only [reset_layer, Option.map_none, Option.getD_none, List.map_const', List.sum_replicate, smul_zero]
    rfl
  · intro id l h
    rw [reset_layer] at h
    cases h
  · simp only [State.holdersAgree, reset_pass, reset_layer, reset_bounce]
    simp

/-- Settles O8: every list of the reset state is empty and every record FREE; the timeline's part is its reset record. -/
theorem resetMeetsTheInvariants : Obligations.ResetMeetsTheInvariants := by
  refine ⟨rfl, Cyc.reset_legal ⟨0, none, 0⟩ (by decide : 0 < 4294967296), reset_pagesPlaced, reset_storeLegal,
    ⟨fun lk => ?_, by decide, by decide, by decide⟩, fun lk => ?_⟩
  · rw [reset_link]
    exact ⟨by decide, by decide⟩
  · have h : State.reset.aqu.queue = [] := rfl
    simp [State.repliesWaiting, State.repliesOwed, reset_link, LinkRec.reset, h, reset_bounce]

end Sys2Proof.Machine
end

section
/-! PROOFS. Serving a request that is ready: what the owner answers is what the request answers; the refusals that come
before an owner's rule; the quantized requests as one. -/

namespace Sys2Proof.Machine

/-! ## A request as its owner meets it -/

theorem taken_keepsTime (lk : Link) (e : Bool) (s : State) : keepsTime s (taken lk e s) := .of_eq (taken_fields lk e s).1

/-- The taking of a request changes no station's settings but what the delivery of events writes. -/
theorem taken_station (lk j : Link) (e : Bool) (s : State) :
    ((taken lk e s).station j).besideEvents = (s.station j).besideEvents := by
  unfold taken
  split
  · exact ((onlyEvents_endQuiet lk (popRequest lk s)).2.2.2.2 j).2
  · rfl

theorem taken_grace (lk j : Link) (e : Bool) (s : State) : ((taken lk e s).station j).grace = (s.station j).grace := by
  have h := congrArg Settings.grace (taken_station lk j e s)
  exact h

theorem taken_linkRuns (lk j : Link) (e : Bool) (s : State) : (taken lk e s).linkRuns j = s.linkRuns j := by
  have h : (popRequest lk s).linkRuns j = s.linkRuns j := by
    simp only [State.linkRuns, popRequest_link]
    split
    · next e => rw [e]
    · rfl
  unfold taken
  split
  · exact ((onlyEvents_endQuiet lk _).linkRuns j).trans h
  · exact h

/-- The marks of the current block are known from the action queue, the controller and N. -/
theorem State.leavesRunning_congr {s u : State} (h1 : u.aqu = s.aqu) (h2 : u.tmc = s.tmc)
    (h3 : u.cyc.block = s.cyc.block) : u.leavesRunning = s.leavesRunning := by
  simp only [State.leavesRunning, h1, h2, h3]

theorem taken_leavesRunning (lk : Link) (e : Bool) (s : State) : (taken lk e s).leavesRunning = s.leavesRunning := by
  obtain ⟨hc, -, -, -, ha, -, -, ht, -⟩ := taken_fields lk e s
  exact State.leavesRunning_congr ha ht (by rw [hc])

/-! ## The answer of a request that is ready -/

/-- A request that is ready is answered with its owner's code, and its owner's effect is the state's. -/
theorem serve_eq_served {s : State} {lk : Link} {c : Instr} {code tag : Byte} {rc : ReplyCode} {f : State → State}
    {payload : Payload} {owner : State → Answer} (h : s.ready lk c = true)
    (ho : owner (taken lk true s) = (f (taken lk true s), rc, payload))
    (hf : keepsTime (taken lk true s) (f (taken lk true s))) :
    serve lk c code (some tag) true owner s = s.served lk code tag rc f payload := by
  have hb : (f (taken lk true s)).cyc.block = s.cyc.block := ((taken_keepsTime lk true s).trans hf).cyc.1
  rw [serve_of_ready h, ho, firstReply, State.served, State.firstReplyOf, hb]

/-- A request whose owner changes nothing. -/
theorem serve_eq_served_id {s : State} {lk : Link} {c : Instr} {code tag : Byte} {rc : ReplyCode}
    {owner : State → Answer} (h : s.ready lk c = true) (ho : owner (taken lk true s) = answer (taken lk true s) rc) :
    serve lk c code (some tag) true owner s = s.served lk code tag rc id :=
  serve_eq_served h ho (keepsTime.refl _)

/-- The reply of a request that is served stands at the tail of its link's reply queue. -/
theorem served_getLast {s : State} {lk : Link} {code tag : Byte} {rc : ReplyCode} {f : State → State} {p : Payload}
    (hr : (f (taken lk true s)).linkRuns lk = true) :
    ((s.served lk code tag rc f p).link lk).replies.getLast? = some (s.firstReplyOf code tag rc p) := by
  simp only [State.served, pushReply, hr, if_true, State.withLink_link_same, List.getLast?_concat]

/-- What a reply leaves as it is. -/
theorem pushReply_fields (lk : Link) (r : Reply) (s : State) :
    (pushReply lk r s).cyc = s.cyc ∧ (pushReply lk r s).lys = s.lys ∧ (pushReply lk r s).pgp = s.pgp ∧
      (pushReply lk r s).pse = s.pse ∧ (pushReply lk r s).aqu = s.aqu ∧ (pushReply lk r s).mxe = s.mxe ∧
      (pushReply lk r s).bne = s.bne ∧ (pushReply lk r s).tmc = s.tmc ∧ (pushReply lk r s).smn = s.smn ∧
      (pushReply lk r s).mem = s.mem ∧ (pushReply lk r s).stopped = s.stopped ∧
      (pushReply lk r s).freeIndex = s.freeIndex ∧ (pushReply lk r s).pending = s.pending :=
  State.inner_fields (pushReply_inner lk r s)

/-! ## Refusals -/

/-- The rule of the owner of a request (R192). -/
def ownerOf : Instr → State → Answer
  | .cycleSet _ _ length beats => ownCycleSet length beats
  | .tap _ _ beats => ownTap beats
  | .transportStop lk tag q => ownTransportStop lk tag q
  | .transportStart _ _ q => ownTransportStart q
  | .songClear _ _ => ownSongClear
  | .passOpen lk tag i t q => ownPassOpen lk tag i t q
  | .passClose lk tag i q => ownPassClose lk tag i q
  | .layerUndo lk tag t q => ownOnTrack lk tag .layerUndo t q
  | .layerRedo lk tag t q => ownOnTrack lk tag .layerRedo t q
  | .trackMute lk tag t q x => ownTrackMute lk tag t q x
  | .trackClear lk tag t q => ownOnTrack lk tag .trackClear t q
  | .trackErase _ _ t => ownTrackErase t
  | .trackLevel _ _ t v => ownTrackLevel t v
  | .trackRoute _ _ t r => ownTrackRoute t r
  | .layerLevel _ _ l v => ownLayerLevel l v
  | .layerPin _ _ l x => ownLayerPin l x
  | .bounce lk tag t j m => ownBounce lk tag t j m
  | .busLevel _ _ b v => ownBusLevel b v
  | .monitorSet _ _ i a b c d => ownMonitorSet i a b c d
  | .graceSet lk _ g => ownGraceSet lk g
  | .returnSet lk _ r => ownReturnSet lk r
  | .eventsSet lk _ k => ownEventsSet lk k
  | .quietSet lk _ x => ownQuietSet lk x
  | .hold lk _ => ownHold lk
  | .resume _ _ => ownResume
  | .supplyLimits _ _ t k => ownSupplyLimits t k
  | .readCycle _ _ => fun s => readAnswer s (cycleRecord s.cyc)
  | .readTrack _ _ t => ownReadTrack t
  | .readLayer _ _ l => ownReadLayer l
  | .readPool _ _ => fun s => readAnswer s (poolRecord s)
  | .readStation _ _ n => ownReadStation n
  | .readHub _ _ => fun s => readAnswer s (hubRecord s)
  | .hubReset lk _ => ownHubReset lk
  | .unknownRequest _ body overlong => ownUnknown body overlong
  | _ => fun s => answer s .unknown

/-- The request begins its station's quiet, so that its taking does not end it (R191). -/
def beginsQuiet : Instr → Bool
  | .quietSet _ _ x => x = 0x01
  | _ => false

/-- A request's command is the serving of its owner's rule, for the requests of the catalogue: they hold their code and
their tag. -/
theorem exec_request {c : Instr} {lk : Link} {code tag : Byte} {args : List Byte} (hl : requestLink c = some lk)
    (hb : requestBody c = some (code :: tag :: args)) (hu : ∀ b o, c ≠ .unknownRequest lk b o) (s : State) :
    exec c s = .next (serve lk c code (some tag) (!beginsQuiet c) (ownerOf c) s) := by
  cases c <;> simp only [requestLink, requestBody, Option.some.injEq, List.cons.injEq, reduceCtorEq] at hl hb
  case unknownRequest l b o => exact absurd (by rw [hl]) (hu b o)
  case quietSet l t x =>
    obtain ⟨rfl, rfl, -⟩ := hb
    subst hl
    simp only [exec, execQuietSet, beginsQuiet, ownerOf, decide_not]
  all_goals
    obtain ⟨rfl, rfl, -⟩ := hb
    subst hl
    rfl

end Sys2Proof.Machine
end

section
/-! PROOFS. Requests refused for an argument, in hold or for their header (R184, R192). -/

namespace Sys2Proof.Machine

/-- An argument that its owner refuses is answered BAD_ARG (R184, step 4): the requests with one checked argument, those
with several, and the limits. -/
theorem ownerOf_badArg {c : Instr} (h : argsAccepted c = false) (s : State) : ownerOf c s = answer s .badArg := by
  cases c
  case cycleSet | tap | transportStop | transportStart | trackErase | trackLevel | layerLevel | busLevel | monitorSet
      | returnSet | quietSet | readTrack | readLayer | readStation =>
    simp only [argsAccepted, Option.isSome_eq_false_iff, Option.isNone_iff_eq_none] at h
    simp only [ownerOf, ownCycleSet, ownTap, ownTransportStop, ownTransportStart, ownTrackErase, ownTrackLevel,
      ownLayerLevel, ownBusLevel, ownMonitorSet, ownReturnSet, ownQuietSet, ownReadTrack, ownReadLayer, ownReadStation, h]
  case passOpen | passClose | layerUndo | layerRedo | trackClear | trackMute | trackRoute | layerPin | bounce =>
    simp only [ownerOf, ownPassOpen, ownPassClose, ownOnTrack, ownTrackMute, ownTrackRoute, ownLayerPin, ownBounce]
    split
    · simp_all [argsAccepted]
    · rfl
  case supplyLimits =>
    simp only [argsAccepted, decide_eq_false_iff_not, Nat.not_le] at h
    simp only [ownerOf, ownSupplyLimits, h, if_true]
  all_goals cases h

/-- In hold, accepted arguments of a request that the catalogue marks HELD are answered HELD (R192). -/
theorem ownerOf_held {c : Instr} (ha : argsAccepted c = true) (hr : refusedInHold c = true) {s : State}
    (hs : s.inHold = true) : ownerOf c s = answer s .held := by
  cases c
  case cycleSet | tap | transportStop | transportStart | trackErase | trackLevel | layerLevel =>
    obtain ⟨x, hx⟩ := Option.isSome_iff_exists.1 ha
    simp only [ownerOf, ownCycleSet, ownTap, ownTransportStop, ownTransportStart, ownTrackErase, ownTrackLevel,
      ownLayerLevel, hx, outsideHold, takeQuantized, hs, if_true]
  case passOpen | passClose | layerUndo | layerRedo | trackClear | trackMute | trackRoute | layerPin | bounce =>
    simp only [argsAccepted, Bool.and_eq_true, Option.isSome_iff_exists] at ha
    simp only [ownerOf, ownPassOpen, ownPassClose, ownOnTrack, ownTrackMute, ownTrackRoute, ownLayerPin, ownBounce]
    split
    · simp only [outsideHold, takeQuantized, hs, if_true]
    · grind
  case songClear => simp only [ownerOf, ownSongClear, outsideHold, hs, if_true]
  all_goals cases hr

/-- A refused setting of QUIET_SET is none that begins the quiet. -/
theorem beginsQuiet_of_badArg {c : Instr} (h : argsAccepted c = false ∨ refusedInHold c = true) :
    beginsQuiet c = false := by
  cases c
  case quietSet lk tag x =>
    simp only [argsAccepted, refusedInHold, Bool.false_eq_true, or_false] at h
    simp only [beginsQuiet, decide_eq_false_iff_not]
    rintro rfl
    cases h
  all_goals rfl

/-- A request of the catalogue whose owner refuses it with `rc` is answered so and changes nothing else. -/
theorem exec_refused {c : Instr} {s : State} {lk : Link} {code tag : Byte} {args : List Byte} {rc : ReplyCode}
    (h : s.ready lk c = true) (hl : requestLink c = some lk) (hb : requestBody c = some (code :: tag :: args))
    (hc : argsAccepted c = false ∨ refusedInHold c = true)
    (ho : ownerOf c (taken lk true s) = answer (taken lk true s) rc) :
    exec c s = .next (s.served lk code tag rc id) := by
  rw [exec_request hl hb (by rintro b o rfl; cases hc <;> contradiction), beginsQuiet_of_badArg hc]
  exact congrArg Host.Outcome.next (serve_eq_served_id h ho)

/-- What R184's steps 1 to 3 answer. -/
theorem ownUnknown_cases (body : List Byte) (overlong : Bool) (s : State) :
    (overlong = true ∨ body.length < 2 → ownUnknown body overlong s = answer s .malformed) ∧
      ∀ code tag args, body = code :: tag :: args → overlong = false →
        (catalogueArgs code.toNat = none → ownUnknown body overlong s = answer s .unknown) ∧
        ∀ n, catalogueArgs code.toNat = some n → ownUnknown body overlong s = answer s .malformed := by
  refine ⟨fun h => ?_, ?_⟩
  · unfold ownUnknown
    rw [if_pos (by simpa using h)]
  · rintro code tag args rfl rfl
    refine ⟨fun h => ?_, fun n h => ?_⟩ <;> simp [ownUnknown, h]

/-- Settles O17: the owner's refusal is all that a refused request comes to. -/
theorem refusedRequestsChangeNothing : Obligations.RefusedRequestsChangeNothing := by
  refine ⟨fun c s lk code tag args h hl hb => ⟨fun ha => ?_, fun ha hr hs => ?_⟩, fun s lk body overlong h => ?_⟩
  · exact exec_refused h hl hb (.inl ha) (ownerOf_badArg ha _)
  · exact exec_refused h hl hb (.inr hr) (ownerOf_held ha hr (by rw [taken_inHold, hs]))
  · have hx (rc : ReplyCode) (ho : ownUnknown body overlong (taken lk true s) = answer (taken lk true s) rc) :
        exec (.unknownRequest lk body overlong) s = .next (pushReply lk
          ⟨body.getD 0 0, body[1]?, false, rc, s.cyc.block % 256, .none, false⟩ (taken lk true s)) := by
      refine congrArg Host.Outcome.next ?_
      rw [serve_of_ready h, ho]
      simp only [firstReply, answer, (taken_fields lk true s).1]
    obtain ⟨h1, h2⟩ := ownUnknown_cases body overlong (taken lk true s)
    refine ⟨fun hb => hx _ (h1 hb), fun code tag args hb ho => ?_⟩
    obtain ⟨h3, h4⟩ := h2 code tag args hb ho
    exact ⟨fun hn => hx _ (h3 hn), fun n hn => hx _ (h4 n hn)⟩

end Sys2Proof.Machine
end

section
/-! PROOFS. The requests on the timeline: CYCLE_SET (R5) and TAP (R6 to R8); the marks of a block (R16, R18). -/

namespace Sys2Proof.Machine

/-! ## The marks of a block -/

/-- The marks of a RUNNING block at position `p` (R16, R18). -/
theorem emitMarks_running {s : State} {p l b : Nat} (hs : s.cyc.state = .running) (hp : s.cyc.pos = some p)
    (hl : s.cyc.len = some l) (hb : s.cyc.beats = some b) :
    emitMarks s = if p % (l / b) = 0 then
      if s.leavesRunning then s.withCyc { s.cyc with withheld := true } else sendMarks l b p s else s := by
  simp only [emitMarks, Cyc.onBeat, sendBlockMarks, hs, hp, hl, hb, decide_eq_true_eq]

/-- The marks of a block at p = 0: the beat mark, and the cycle mark after it. -/
theorem emitMarks_top {s : State} {l b : Nat} (hs : s.cyc.state = .running) (hp : s.cyc.pos = some 0)
    (hl : s.cyc.len = some l) (hb : s.cyc.beats = some b) :
    emitMarks s = if s.leavesRunning then s.withCyc { s.cyc with withheld := true }
      else emit (.cycleMark l b) (emit (.beatMark 0) s) := by
  rw [emitMarks_running hs hp hl hb, if_pos (Nat.zero_mod _)]
  simp only [sendMarks, Nat.zero_div, if_true]

/-- A block whose timeline does not run has no marks. -/
theorem emitMarks_of_not_running {s : State} (h : s.cyc.state ≠ .running) : emitMarks s = s := by
  have : s.cyc.onBeat = false := by
    unfold Cyc.onBeat
    split
    · next hs _ _ _ => exact absurd hs h
    · rfl
  simp [emitMarks, this]

/-! ## CYCLE_SET -/

theorem outsideHold_of_not {s : State} {owner : State → Answer} (h : s.inHold = false) :
    outsideHold s owner = owner s := by
  simp [outsideHold, h]

/-- Settles O19: the owner's rule on the state as it is taken, its marks those at p = 0. -/
theorem cycleSetStartsTheTimeline : Obligations.CycleSetStartsTheTimeline := by
  intro s lk tag length beats b h hold hb
  have hh : (taken lk true s).inHold = false := by rw [taken_inHold, hold]
  have hc := (taken_fields lk true s).1
  refine ⟨fun hs => congrArg Host.Outcome.next (serve_eq_served h ?_ ?_), fun hs =>
    congrArg Host.Outcome.next (serve_eq_served_id h ?_)⟩
  · have hx : (taken lk true s).cyc.state = .unset := by rw [hc, hs]
    simp only [ownCycleSet, hb, outsideHold_of_not hh, hx, if_true, answer]
    have hk : ((taken lk true s).withCyc ((taken lk true s).cyc.startCycle (roundCycle (lengthArg length) b) b)).leavesRunning =
        s.leavesRunning := taken_leavesRunning lk true s
    rw [emitMarks_top rfl rfl rfl rfl, hk]
    rfl
  · have hx : (taken lk true s).cyc.state = .unset := by rw [hc, hs]
    obtain ⟨hb1, hb2⟩ := beatsArg_legal hb
    have hk := keepsInputs_withCyc (Cyc.keeps_startCycle (clampNat 250 30000 length.toNat) hx hb1 hb2)
    split
    · exact (hk.trans (keepsInputs_withCyc (Cyc.keeps_withheld _ _))).time
    · exact ((hk.trans (keepsInputs_emit _ _)).trans (keepsInputs_emit _ _)).time
  · have hx : (taken lk true s).cyc.state ≠ .unset := by rwa [hc]
    simp only [ownCycleSet, hb, outsideHold_of_not hh, hx, if_false]

/-! ## TAP -/

/-- A TAP in the states that take it, answered OK with the timeline it makes. -/
theorem exec_tap {s : State} {lk : Link} {tag beats : Byte} {b : Option Nat} {c : Cyc}
    (h : s.ready lk (.tap lk tag beats) = true) (hold : s.inHold = false) (hb : tapBeatsArg beats = some b)
    (hc : (s.cyc.state = .unset ∧ c = s.cyc.firstTap b) ∨
      (s.cyc.state = .counting ∧ s.cyc.schedStart = none ∧ c = s.cyc.nextTap b)) :
    exec (.tap lk tag beats) s = .next (s.served lk 0x02 tag .ok fun x => x.withCyc c) := by
  have hh : (taken lk true s).inHold = false := by rw [taken_inHold, hold]
  have hx := (taken_fields lk true s).1
  refine congrArg Host.Outcome.next (serve_eq_served h ?_ ?_)
  · obtain ⟨hs, rfl⟩ | ⟨hs, hn, rfl⟩ := hc
    · simp [ownTap, hb, outsideHold_of_not hh, hx, hs, answer]
    · simp [ownTap, hb, outsideHold_of_not hh, hx, hs, hn, answer]
  · refine ⟨?_⟩
    rw [State.withCyc_cyc, hx]
    obtain ⟨hs, rfl⟩ | ⟨hs, hn, rfl⟩ := hc
    · exact Cyc.keeps_firstTap hs hb
    · exact Cyc.keeps_nextTap hs hn hb

/-- Settles O20: the four cases of a further tap are those of R7 and R8. -/
theorem tapCountsIn : Obligations.TapCountsIn := by
  intro s lk tag beats b h hold hb setting answered result
  refine ⟨fun hs => exec_tap h hold hb (.inl ⟨hs, rfl⟩), fun hu hn => ?_, fun n0 hs hn hl => ?_⟩
  · have hh : (taken lk true s).inHold = false := by rw [taken_inHold, hold]
    have hx := (taken_fields lk true s).1
    refine congrArg Host.Outcome.next (serve_eq_served_id h ?_)
    have : ¬(s.cyc.state = .counting ∧ s.cyc.schedStart = none) := fun ⟨h1, h2⟩ => hn.elim (· h1) (· h2)
    simp [ownTap, hb, outsideHold_of_not hh, hx, hu, this]
  · intro gap
    have hgap : diff32 s.cyc.block (s.cyc.lastTap.getD s.cyc.block) = gap := by rw [hl]; rfl
    refine ⟨fun hg => exec_tap h hold hb (.inr ⟨hs, hn, ?_⟩), fun hg => exec_tap h hold hb (.inr ⟨hs, hn, ?_⟩),
      fun h1 h2 ht => exec_tap h hold hb (.inr ⟨hs, hn, ?_⟩), fun h1 h2 ht => exec_tap h hold hb (.inr ⟨hs, hn, ?_⟩)⟩
    · simp only [Cyc.nextTap, hgap, hg, if_true]
      rfl
    · have hg0 : gap ≠ 0 := by omega
      simp only [Cyc.nextTap, hgap, hg0, hg, if_true, if_false]
      rfl
    · have hg0 : gap ≠ 0 := by omega
      have hg1 : ¬2000 < gap := by omega
      have hlen : (s.cyc.taps ++ [gap]).length < 3 := by simp; omega
      simp only [Cyc.nextTap, hgap, hg0, hg1, hlen, if_true, if_false]
      rfl
    · have hg0 : gap ≠ 0 := by omega
      have hg1 : ¬2000 < gap := by omega
      have hlen : ¬(s.cyc.taps ++ [gap]).length < 3 := by simp; omega
      simp only [Cyc.nextTap, hgap, hg0, hg1, hlen, if_false, tapBeat, List.sum_append, List.sum_singleton, wrap32]
      rfl

end Sys2Proof.Machine
end

section
/-! PROOFS. The quantized requests as one (R94, R99): withdrawn, refused at the taking, waiting, or executed at once. -/

namespace Sys2Proof.Machine

/-! ## What a quantized request reads of the state -/

/-- Two states with the same timeline, layer store and inputs give every track the same length and position. -/
theorem State.trackPos_congr {s u : State} (hc : u.cyc = s.cyc) (hl : u.lys = s.lys) (t : TrackId) :
    u.trackLen t = s.trackLen t ∧ u.trackPos t = s.trackPos t := by
  simp only [State.trackLen, State.trackPos, State.track, hc, hl, and_self]

theorem taken_trackPos (lk : Link) (e : Bool) (s : State) (t : TrackId) :
    (taken lk e s).trackLen t = s.trackLen t ∧ (taken lk e s).trackPos t = s.trackPos t :=
  State.trackPos_congr (taken_fields lk e s).1 (taken_fields lk e s).2.1 t

theorem taken_loopPositions (lk : Link) (e : Bool) (s : State) : (taken lk e s).loopPositions = s.loopPositions := by
  simp only [State.loopPositions, (taken_reads lk e s).1, (taken_trackPos lk e s _).2]

theorem taken_pendingSame (lk : Link) (e : Bool) (s : State) (a : Action) :
    (taken lk e s).pendingSame lk a = s.pendingSame lk a := by
  obtain ⟨-, -, -, -, ha, -⟩ := taken_fields lk e s
  simp only [State.pendingSame, ha]

theorem taken_takingCheck (lk : Link) (e : Bool) (s : State) (a : Action) :
    (taken lk e s).takingCheck a = s.takingCheck a := by
  obtain ⟨ht, -, -, hp⟩ := taken_reads lk e s
  cases a <;> simp only [State.takingCheck, State.openCheck, (taken_fields lk e s).1, ht, hp]

/-- The timing of a request reads the timeline, the track, the pass and the station's grace (R95 to R98). -/
theorem taken_timing (lk : Link) (e : Bool) (s : State) (a : Action) (mode : Quantize) :
    (taken lk e s).timing lk a mode = s.timing lk a mode := by
  obtain ⟨ht, -, -, hp⟩ := taken_reads lk e s
  have htrack : (taken lk e s).actionTrack a = s.actionTrack a := by
    cases a <;> simp only [State.actionTrack, hp]
  have hmode : (taken lk e s).timingMode a mode = s.timingMode a mode := by
    cases a <;> simp only [State.timingMode, hp, ht]
  have hlen : (taken lk e s).trackLen = s.trackLen := funext fun t => (taken_trackPos lk e s t).1
  have hpos : (taken lk e s).trackPos = s.trackPos := funext fun t => (taken_trackPos lk e s t).2
  have hperiod (m : Quantize) (t : Option TrackId) : (taken lk e s).period m t = s.period m t := by
    simp only [State.period, hlen, hpos, (taken_fields lk e s).1]
  simp only [State.timing, hmode, htrack, hperiod, taken_grace, (taken_fields lk e s).1]

theorem taken_passLayerOf (lk : Link) (e : Bool) (s : State) (a : Action) :
    (taken lk e s).passLayerOf a = s.passLayerOf a := by
  obtain ⟨-, hl, -, hp⟩ := taken_reads lk e s
  cases a <;> simp only [State.passLayerOf, hp, hl]

/-! ## The taking of a quantized request -/

/-- The command of a quantized request is the serving of the one rule for all seven kinds. -/
theorem exec_quantized {c : Instr} {lk : Link} {tag : Byte} {a : Action} {mode : Quantize}
    (h : quantizedOf c = some (lk, tag, a, mode)) (s : State) :
    exec c s = .next (serve lk c a.code (some tag) true (takeQuantized lk tag a mode) s) := by
  have owner {l : Link} {code t : Byte} {o : State → Answer} (ho : o = takeQuantized lk tag a mode) (hl : l = lk)
      (ht : t = tag) (hcode : code = a.code) : Host.Outcome.next (serve l c code (some t) true o s) =
        (.next (serve lk c a.code (some tag) true (takeQuantized lk tag a mode) s) :
          Host.Outcome State Fault Refusal) := by
    rw [ho, hl, ht, hcode]
  cases c
  case transportStop l t q =>
    obtain ⟨m, hq, he⟩ := Option.map_eq_some_iff.1 h
    cases he
    exact owner (funext fun x => by simp only [ownTransportStop, hq]) rfl rfl rfl
  case passOpen | passClose | layerUndo | layerRedo | trackClear | trackMute =>
    simp only [quantizedOf] at h
    split at h
    · cases h
      refine owner (funext fun x => ?_) rfl rfl rfl
      simp only [ownPassOpen, ownPassClose, ownOnTrack, ownTrackMute, *]
    · cases h
  all_goals cases h

/-- A quantized request outside hold that withdraws no entry and that its owner's checks accept. -/
structure Accepted (s : State) (lk : Link) (tag : Byte) (c : Instr) (a : Action) (mode : Quantize) : Prop where
  ready : s.ready lk c = true
  hold : s.inHold = false
  action : quantizedOf c = some (lk, tag, a, mode)
  fresh : s.pendingSame lk a = none
  check : s.takingCheck a = none

/-- An accepted request whose timing is at once is executed and answered with the code of its result (R99). -/
theorem exec_atOnce {s : State} {lk : Link} {tag : Byte} {c : Instr} {a : Action} {mode : Quantize} {d : Nat}
    {f : State → State} {rc : ReplyCode} (h : Accepted s lk tag c a mode) (ht : s.timing lk a mode = .atOnce d)
    (hx : execAction a d (taken lk true s) = (f (taken lk true s), rc)) :
    exec c s = .next (s.served lk a.code tag rc f) := by
  have hh : (taken lk true s).inHold = false := by rw [taken_inHold, h.hold]
  have hk := keepsInputs_execAction a d (taken lk true s)
  rw [hx] at hk
  rw [exec_quantized h.action]
  refine congrArg Host.Outcome.next (serve_eq_served h.ready ?_ hk.time)
  simp [takeQuantized, hh, taken_pendingSame, h.fresh, taken_takingCheck, h.check, taken_timing, ht, hx, answer]

/-- A request refused by its owner's checks at the taking (R99, step 4). -/
theorem exec_checkFails {s : State} {lk : Link} {tag : Byte} {c : Instr} {a : Action} {mode : Quantize}
    {rc : ReplyCode} (hr : s.ready lk c = true) (hold : s.inHold = false)
    (hq : quantizedOf c = some (lk, tag, a, mode)) (hn : s.pendingSame lk a = none) (hc : s.takingCheck a = some rc) :
    exec c s = .next (s.served lk a.code tag rc id) := by
  have hh : (taken lk true s).inHold = false := by rw [taken_inHold, hold]
  rw [exec_quantized hq]
  refine congrArg Host.Outcome.next (serve_eq_served_id hr ?_)
  simp [takeQuantized, hh, taken_pendingSame, hn, taken_takingCheck, hc]

/-- Actions of one kind have one request code. -/
theorem Action.code_of_sameTarget {a b : Action} (h : a.sameTarget b = true) : a.code = b.code := by
  unfold Action.sameTarget at h
  split at h
  case h_8 => cases h
  all_goals rfl

/-- A request withdraws the station's pending entry of its kind and target (R102). -/
theorem exec_withdrawn {s : State} {lk : Link} {tag : Byte} {c : Instr} {a : Action} {mode : Quantize} {e : Entry}
    (hr : s.ready lk c = true) (hold : s.inHold = false) (hq : quantizedOf c = some (lk, tag, a, mode))
    (he : s.pendingSame lk a = some e) :
    exec c s = .next (s.served lk a.code tag .withdrawn fun x =>
      reply lk a.code e.tag true .cancelled .none (x.withAqu { s.aqu with queue := s.aqu.queue.erase e })) := by
  have hh : (taken lk true s).inHold = false := by rw [taken_inHold, hold]
  have hsame : e.action.code = a.code := by
    have := List.find?_some he
    simp only [Bool.and_eq_true] at this
    exact Action.code_of_sameTarget this.2
  rw [exec_quantized hq]
  refine congrArg Host.Outcome.next (serve_eq_served hr ?_ ?_)
  · simp [takeQuantized, hh, taken_pendingSame, he, hsame, answer, (taken_fields lk true s).2.2.2.2.1]
  · exact ((keepsInputs_withAqu _ _).trans (keepsInputs_reply _ _ _ _ _ _ _)).time

/-- An accepted request with a due block waits, or finds the queue full (R100, R101). -/
theorem exec_waits {s : State} {lk : Link} {tag : Byte} {c : Instr} {a : Action} {mode : Quantize} {n : Nat}
    (h : Accepted s lk tag c a mode) (ht : s.timing lk a mode = .due n) :
    (16 ≤ s.aqu.queue.length → exec c s = .next (s.served lk a.code tag .queueFull fun x =>
      x.withAqu { s.aqu with fulls := sat32 (s.aqu.fulls + 1) })) ∧
    (s.aqu.queue.length < 16 → exec c s = .next (s.served lk a.code tag .queued
      (fun x => x.withAqu
        { s.aqu with
          queue := insertEntry s.cyc.block
            { action := a, mode := mode, station := lk, tag := tag, due := n, arrival := s.aqu.arrivals,
              passLayer := s.passLayerOf a } s.aqu.queue
          arrivals := wrap32 (s.aqu.arrivals + 1) })
      (.queued n (diff32 n s.cyc.block) s.aqu.arrivals))) := by
  have hh : (taken lk true s).inHold = false := by rw [taken_inHold, h.hold]
  obtain ⟨hc, -, -, -, ha, -⟩ := taken_fields lk true s
  rw [exec_quantized h.action]
  refine ⟨fun hf => congrArg Host.Outcome.next (serve_eq_served h.ready ?_ ?_), fun hf =>
    congrArg Host.Outcome.next (serve_eq_served h.ready ?_ ?_)⟩
  · simp [takeQuantized, hh, taken_pendingSame, h.fresh, taken_takingCheck, h.check, taken_timing, ht, answer, ha, hf]
  · exact (keepsInputs_withAqu _ _).time
  · have : ¬16 ≤ s.aqu.queue.length := by omega
    simp [takeQuantized, hh, taken_pendingSame, h.fresh, taken_takingCheck, h.check, taken_timing, ht, ha, this, enqueue,
      hc, taken_passLayerOf]
  · exact (keepsInputs_withAqu _ _).time

/-! ## The order of the queue -/

/-- A new entry stands behind every entry due no later and ahead of every entry due later (R101). -/
theorem insertEntry_splits (now : Nat) (e : Entry) :
    ∀ q : List Entry, q.Pairwise (fun x y => diff32 x.due now ≤ diff32 y.due now) →
      ∃ front back, q = front ++ back ∧ insertEntry now e q = front ++ e :: back ∧
        (∀ x ∈ front, diff32 x.due now ≤ diff32 e.due now) ∧ ∀ x ∈ back, diff32 e.due now < diff32 x.due now
  | [], _ => ⟨[], [], rfl, rfl, by simp, by simp⟩
  | x :: xs, h => by
    obtain ⟨hx, hxs⟩ := List.pairwise_cons.1 h
    unfold insertEntry
    split
    · next hlt =>
      refine ⟨[], x :: xs, rfl, rfl, by simp, fun y hy => ?_⟩
      obtain rfl | hy := List.mem_cons.1 hy
      · exact hlt
      · exact hlt.trans_le (hx y hy)
    · next hle =>
      obtain ⟨front, back, hq, hi, hfront, hback⟩ := insertEntry_splits now e xs hxs
      refine ⟨x :: front, back, by rw [hq]; rfl, by rw [hi]; rfl, fun y hy => ?_, hback⟩
      obtain rfl | hy := List.mem_cons.1 hy
      · exact Nat.le_of_not_lt hle
      · exact hfront y hy

/-! ## The checks at the taking -/

/-- The timeline checks of PASS_OPEN: a pass may open in UNSET, in RUNNING and after the fourth tap (R77). -/
theorem State.openCheck_timeline (s : State) (i : Input) (t : TrackId) :
    let opens := s.cyc.state = .unset ∨ s.cyc.state = .running ∨ (s.cyc.state = .counting ∧ s.cyc.schedStart ≠ none)
    (¬opens → s.openCheck i t = some .wrongState) ∧
    (opens → s.openCheck i t =
      if (s.pass i).isSome then some .inputBusy
      else if (s.track t).state = .opening then some .trackOpening
      else if 12 ≤ (s.track t).stack.length then some .stackFull else none) := by
  have hopen : (s.cyc.state ≠ .unset && s.cyc.state ≠ .running && !s.cyc.afterFourthTap : Bool) = true ↔
      ¬(s.cyc.state = .unset ∨ s.cyc.state = .running ∨ (s.cyc.state = .counting ∧ s.cyc.schedStart ≠ none)) := by
    simp only [Cyc.afterFourthTap, Bool.and_eq_true, Bool.not_eq_true', Bool.and_eq_false_iff, decide_eq_true_eq,
      decide_eq_false_iff_not, Option.isSome_eq_false_iff, Option.isNone_iff_eq_none]
    tauto
  refine ⟨fun h => ?_, fun h => ?_⟩
  · unfold State.openCheck
    rw [if_pos (hopen.2 h)]
  · unfold State.openCheck
    rw [if_neg fun h' => hopen.1 h' h]

/-- The stop is taken in COUNTING and RUNNING (R19). -/
theorem State.takingCheck_stop (s : State) :
    (¬(s.cyc.state = .counting ∨ s.cyc.state = .running) → s.takingCheck .transportStop = some .wrongState) ∧
      (s.cyc.state = .counting ∨ s.cyc.state = .running → s.takingCheck .transportStop = none) := by
  refine ⟨fun h => ?_, fun h => ?_⟩ <;> simp [State.takingCheck, h]

theorem State.takingCheck_close (s : State) (i : Input) :
    (s.pass i = none → s.takingCheck (.passClose i) = some .noPass) ∧
      (s.pass i ≠ none → s.takingCheck (.passClose i) = none) := by
  refine ⟨fun h => by simp [State.takingCheck, h], fun h => ?_⟩
  simp [State.takingCheck, Option.isSome_iff_ne_none, h]

/-- Settles O26: the four outcomes of a taking, the place of a new entry, and the owners' checks in order. -/
theorem quantizedRequestWaits : Obligations.QuantizedRequestWaits := by
  refine ⟨fun c s lk tag a mode hr hold hq => ⟨fun e he => exec_withdrawn hr hold hq he,
    fun rc hn hc => exec_checkFails hr hold hq hn hc, fun n hn hc ht => ?_⟩, fun now e q h => insertEntry_splits now e q h,
    fun s i t on => ?_⟩
  · exact exec_waits ⟨hr, hold, hq, hn, hc⟩ ht
  · intro opens stops
    obtain ⟨h1, h2⟩ := s.openCheck_timeline i t
    obtain ⟨h3, h4⟩ := s.takingCheck_close i
    obtain ⟨h5, h6⟩ := s.takingCheck_stop
    refine ⟨h1, fun ho hp => ?_, fun ho hp ht => ?_, fun ho hp ht => ⟨fun hl => ?_, fun hl => ?_⟩, h3, h4, h5, h6,
      rfl, rfl, rfl, rfl⟩ <;> rw [State.takingCheck, h2 ho]
    · rw [if_pos (Option.isSome_iff_ne_none.2 hp)]
    · simp [hp, ht]
    · simp [hp, ht, hl]
    · simp [hp, ht, hl]

end Sys2Proof.Machine
end

section
/-! PROOFS. The transport: TRANSPORT_STOP and TRANSPORT_START (R10, R19, R20). -/

namespace Sys2Proof.Machine

/-! ## The restart -/

/-- The anchor of a track at a restart (R20). -/
def restartTrack (s : State) (t : TrackId) : State :=
  if (s.track t).state = .empty then s else s.withTrack t { s.track t with anchor := some 0 }

theorem restart_eq (s : State) :
    restart s = allTracks.foldl restartTrack (s.withCyc { s.cyc with state := .running, pos := some 0, count := 0 }) :=
  rfl

theorem restartTrack_track (s : State) (t u : TrackId) :
    (restartTrack s t).track u =
      if u = t ∧ (s.track u).state ≠ .empty then { s.track u with anchor := some 0 } else s.track u := by
  unfold restartTrack
  split
  · next h =>
    rw [if_neg]
    rintro ⟨rfl, hn⟩
    exact hn h
  · next h =>
    rw [State.withTrack_track]
    split
    · next e => subst e; simp [h]
    · next e => simp [e]

/-- Setting the anchors of a list of tracks sets each once. -/
theorem restartTracks_track (u : TrackId) : ∀ (ts : List TrackId) (s : State),
    (ts.foldl restartTrack s).track u =
      if u ∈ ts ∧ (s.track u).state ≠ .empty then { s.track u with anchor := some 0 } else s.track u
  | [], s => by simp
  | t :: ts, s => by
    rw [List.foldl_cons, restartTracks_track u ts, restartTrack_track]
    by_cases hs : (s.track u).state = .empty
    · simp [hs]
    · by_cases ht : u = t
      · subst ht
        by_cases hm : u ∈ ts <;> simp [hs, hm]
      · simp [ht]

theorem restartTracks_frame : ∀ (ts : List TrackId) (s : State),
    ts.foldl restartTrack s = { s with lys.tracks := (ts.foldl restartTrack s).lys.tracks }
  | [], _ => rfl
  | t :: ts, s => by
    rw [List.foldl_cons, restartTracks_frame ts]
    unfold restartTrack
    split <;> rfl

/-- A restart sets the timeline and the anchors, and nothing else (R20). -/
theorem restart_frame (s : State) :
    (restart s).cyc = { s.cyc with state := .running, pos := some 0, count := 0 } ∧
      restart s = { s with cyc := (restart s).cyc, lys.tracks := (restart s).lys.tracks } := by
  have h (y : State) : ∃ x, allTracks.foldl restartTrack y = { y with lys.tracks := x } :=
    ⟨_, restartTracks_frame allTracks y⟩
  obtain ⟨x, hx⟩ := h (s.withCyc { s.cyc with state := .running, pos := some 0, count := 0 })
  have hr := (restart_eq s).trans hx
  rw [hr]
  exact ⟨rfl, rfl⟩

theorem restart_track (s : State) (t : TrackId) :
    (restart s).track t = if (s.track t).state = .empty then s.track t else { s.track t with anchor := some 0 } := by
  have ht : t ∈ allTracks := by revert t; decide
  rw [restart_eq, restartTracks_track, State.withCyc_track]
  by_cases hs : (s.track t).state = .empty <;> simp [hs, ht]

theorem restart_leavesRunning (s : State) : (restart s).leavesRunning = s.leavesRunning := by
  obtain ⟨hc, hf⟩ := restart_frame s
  exact State.leavesRunning_congr (by rw [hf]) (by rw [hf]) (by rw [hc])

/-! ## TRANSPORT_STOP -/

/-- A stop is timed at once outside RUNNING, and in RUNNING with the mode NOW (R95, R96). -/
theorem State.timing_stop {s : State} {lk : Link} {mode : Quantize} (h : s.cyc.state ≠ .running ∨ mode = .now) :
    s.timing lk .transportStop mode = .atOnce 0 := by
  unfold State.timing
  split
  · next ha _ => cases ha
  · next hr =>
    obtain h | rfl := h
    · exact absurd hr h
    · rfl
  · rfl

/-- A stop that is taken at once. -/
theorem exec_stop {s : State} {lk : Link} {tag quantize : Byte} {mode : Quantize} {f : State → State}
    (h : s.ready lk (.transportStop lk tag quantize) = true) (hold : s.inHold = false)
    (hq : quantizeArg quantize = some mode) (hn : s.pendingSame lk .transportStop = none)
    (hs : s.cyc.state = .counting ∨ (s.cyc.state = .running ∧ mode = .now))
    (hf : execStop (taken lk true s) = (f (taken lk true s), .done)) :
    exec (.transportStop lk tag quantize) s = .next (s.served lk 0x03 tag .done f) := by
  refine exec_atOnce (mode := mode) ⟨h, hold, by simp only [quantizedOf, hq, Option.map_some], hn, ?_⟩
    (State.timing_stop ?_) hf
  · exact s.takingCheck_stop.2 (hs.imp_right (·.1))
  · exact hs.imp (fun h => by rw [h]; decide) (·.2)

/-- Settles O21: the stop in its two states, the restart, and the refusals in the others. -/
theorem transportStopsAndRestarts : Obligations.TransportStopsAndRestarts := by
  refine ⟨fun s lk tag quantize mode h hold hq hn => ⟨fun hs => ?_, fun hs hm => ?_, fun h1 h2 => ?_⟩,
    fun s lk tag quantize mode l b h hold hq => ⟨fun hs hl hb => ?_, fun hs => ?_⟩, fun s =>
    ⟨(restart_frame s).1, restart_track s, (restart_frame s).2⟩⟩
  · refine exec_stop h hold hq hn (.inl hs) ?_
    have hx : (taken lk true s).cyc.state = .counting := by rw [(taken_fields lk true s).1, hs]
    rw [execStop, if_pos hx]
    rfl
  · refine exec_stop h hold hq hn (.inr ⟨hs, hm⟩) ?_
    have hx : (taken lk true s).cyc.state = .running := by rw [(taken_fields lk true s).1, hs]
    rw [execStop, if_neg (by rw [hx]; decide), if_pos hx, leaveRunning, taken_loopPositions]
  · exact exec_checkFails (mode := mode) h hold (by simp only [quantizedOf, hq, Option.map_some]) hn
      (s.takingCheck_stop.1 (by tauto))
  · have hh : (taken lk true s).inHold = false := by rw [taken_inHold, hold]
    have hc := (taken_fields lk true s).1
    have hx : (taken lk true s).cyc.state = .paused := by rw [hc, hs]
    have hk := keepsInputs_restart hx
    obtain ⟨hcyc, -⟩ := restart_frame (taken lk true s)
    refine congrArg Host.Outcome.next (serve_eq_served h ?_ ?_)
    · simp only [ownTransportStart, hq, outsideHold_of_not hh, hx, if_true, answer]
      rw [emitMarks_top (by rw [hcyc]) (by rw [hcyc]) (by rw [hcyc, hc]; exact hl) (by rw [hcyc, hc]; exact hb),
        restart_leavesRunning, taken_leavesRunning]
    · split
      · exact (hk.trans (keepsInputs_withCyc (Cyc.keeps_withheld _ _))).time
      · exact ((hk.trans (keepsInputs_emit _ _)).trans (keepsInputs_emit _ _)).time
  · have hh : (taken lk true s).inHold = false := by rw [taken_inHold, hold]
    have hx : (taken lk true s).cyc.state ≠ .paused := by rwa [(taken_fields lk true s).1]
    refine congrArg Host.Outcome.next (serve_eq_served_id h ?_)
    simp only [ownTransportStart, hq, outsideHold_of_not hh, hx, if_false]

end Sys2Proof.Machine
end

section
/-! PROOFS. The close of a measuring pass in its three cases (R12, R87), and the steps of the timeline that come about by
themselves (R9, R13). -/

namespace Sys2Proof.Machine

/-! ## What marks leave as it is -/

/-- The marks of a block are events, and the note of the withheld ones. -/
theorem emitMarks_onlyEvents (s : State) :
    ∃ w, onlyEvents (s.withCyc { s.cyc with withheld := w }) (emitMarks s) ∧ (s.cyc.withheld = true → w = true) := by
  obtain h | h | h := emitMarks_cases s <;> rw [h]
  · exact ⟨s.cyc.withheld, onlyEvents.refl s, id⟩
  · exact ⟨true, onlyEvents.refl _, fun _ => rfl⟩
  · exact ⟨s.cyc.withheld, onlyEvents_sendBlockMarks s, id⟩

theorem emitMarks_reads (s : State) :
    (∀ t, (emitMarks s).track t = s.track t) ∧ (∀ id, (emitMarks s).layer id = s.layer id) ∧
      (∀ i, (emitMarks s).input i = s.input i) ∧ ∀ i, (emitMarks s).pass i = s.pass i := by
  obtain ⟨w, h, -⟩ := emitMarks_onlyEvents s
  exact h.reads

theorem emitMarks_cyc (s : State) : ∃ w, (emitMarks s).cyc = { s.cyc with withheld := w } := by
  obtain ⟨w, h, -⟩ := emitMarks_onlyEvents s
  exact ⟨w, (State.inner_fields h.1).1⟩

/-! ## Records changed -/

theorem mapLayer_of_some {id : LayerId} {f : Layer → Layer} {s : State} {l : Layer} (h : s.layer id = some l) :
    mapLayer id f s = s.withLayer id (some (f l)) := by
  simp only [mapLayer, h]

theorem mapPass_of_some {i : Input} {f : Pass → Pass} {s : State} {p : Pass} (h : s.pass i = some p) :
    mapPass i f s = s.withPass i (some (f p)) := by
  simp only [mapPass, h]

/-- What a first pass fixes (R34): the track's multiplier and the layer's length. -/
theorem fixLength_of_some {p : Pass} {s : State} {l : Layer} (h : s.layer p.layer = some l) (k len : Nat) :
    fixLength p k len s =
      (s.withTrack p.track { s.track p.track with state := .looping, mult := some k }).withLayer p.layer
        (some { l with length := some (k * len) }) := by
  have h' : (s.withTrack p.track { s.track p.track with state := .looping, mult := some k }).layer p.layer = some l := h
  rw [fixLength, mapLayer_of_some h']

/-! ## The close of a measuring pass -/

/-- The state in which a measuring pass's cycle has been placed and its marks sent (R12, R34). -/
def placedMeasure (p : Pass) (l : Layer) (s : State) : State :=
  let len := roundCycle s.cyc.measured s.cyc.setting
  ((emitMarks (s.withCyc s.cyc.placeMeasured)).withTrack p.track
    { s.track p.track with state := .looping, mult := some 1 }).withLayer p.layer
    (some { l with length := some (1 * len) })

/-- The three cases of the close (R12, R87): a shorter cycle ends the pass, an equal one lets it wait for its spill, a
longer one lets it write on. -/
theorem closeMeasure_eq {s : State} {i : Input} {p : Pass} {l : Layer} (hp : s.pass i = some p)
    (hl : s.layer p.layer = some l) :
    closeMeasure i p s =
      let m := s.cyc.measured
      let len := roundCycle m s.cyc.setting
      let x := placedMeasure p l s
      if len < m then
        completePass false (layerBlock x p.layer len) i
          (mapPass i (fun p => { p with close := some len }) (trimTo p.layer len x))
      else if len = m then x.withPass i (some { p with state := .spillWait, close := some len, spillReady := false })
      else x.withPass i (some { p with close := some len }) := by
  obtain ⟨ht, hly, -, hps⟩ := emitMarks_reads (s.withCyc s.cyc.placeMeasured)
  obtain ⟨w, hc⟩ := emitMarks_cyc (s.withCyc s.cyc.placeMeasured)
  have hlen : (emitMarks (s.withCyc s.cyc.placeMeasured)).cyc.len = some (roundCycle s.cyc.measured s.cyc.setting) := by
    rw [hc]; rfl
  have hx : fixLength p 1 (roundCycle s.cyc.measured s.cyc.setting) (emitMarks (s.withCyc s.cyc.placeMeasured)) =
      placedMeasure p l s := by
    rw [fixLength_of_some (by rw [hly]; exact hl), ht]
    rfl
  have hpx : (placedMeasure p l s).pass i = some p := (hps i).trans hp
  simp only [closeMeasure, hlen, Option.getD_some, hx, awaitSpill, mapPass_of_some hpx]

/-- A close of measuring leaves the timeline RUNNING. -/
theorem closeMeasure_running (s : State) (i : Input) (p : Pass) :
    (closeMeasure i p s).cyc.state = .running := by
  obtain ⟨w, hc⟩ := emitMarks_cyc (s.withCyc s.cyc.placeMeasured)
  unfold closeMeasure
  extract_lets m s1 len s2 spill
  have h2 : s2.cyc.state = .running := by
    rw [(onlyStore_fixLength p 1 len s1).fields.1]
    simp only [s1, hc]
    rfl
  clear_value s2
  have h3 : ((mapPass i (fun p => { p with close := some len }) (trimTo p.layer len s2))).cyc = s2.cyc := by
    rw [← (onlyStore_trimTo p.layer len s2).fields.1]
    unfold mapPass
    split <;> rfl
  have hcomplete (x : State) (b : Block) : (completePass false b i x).cyc = x.cyc := by
    unfold completePass
    split
    · rfl
    · extract_lets s1 s2 l
      have h1 : s1.cyc = x.cyc := by simp only [s1]; rw [(storeBlock_mem _ _ _ x).1]; rfl
      have h2 : s2.cyc = s1.cyc := by
        simp only [s2, clearPass, State.withInput_cyc]
        exact (onlyStore_mapLayer _ _ s1).fields.1
      exact ((State.inner_fields (onlyEvents_emitAt _ _ s2).1).1.trans h2).trans h1
  split
  · rw [hcomplete, h3, h2]
  · split <;> (simp only [awaitSpill, mapPass]; split <;> exact h2)

/-! ## The automatic close -/

/-- A fold that changes the state at one element only. -/
theorem foldl_once {α β : Type} {f : β → α → β} {s : β} {i : α} : ∀ {xs : List α}, i ∈ xs → xs.Nodup →
    (∀ j ∈ xs, j ≠ i → f s j = s) → (∀ j ∈ xs, j ≠ i → f (f s i) j = f s i) → xs.foldl f s = f s i
  | [], hi, _, _, _ => by cases hi
  | x :: xs, hi, hn, hb, ha => by
    obtain ⟨hx, hn⟩ := List.nodup_cons.1 hn
    rw [List.foldl_cons]
    obtain rfl | hi := List.mem_cons.1 hi
    · exact foldl_fixed f _ xs fun j hj => ha j (List.mem_cons_of_mem _ hj) fun e => hx (e ▸ hj)
    · rw [hb x (by simp) fun e => hx (e ▸ hi)]
      exact foldl_once hi hn (fun j hj => hb j (by simp [hj])) fun j hj => ha j (by simp [hj])

theorem mem_allInputs (i : Input) : i ∈ allInputs := by revert i; decide

theorem allInputs_nodup : allInputs.Nodup := by decide

/-- The automatic close at one input (R13). -/
def autoCloseAt (s : State) (i : Input) : State :=
  match s.pass i with
  | some p => if s.measureFull i then closeMeasure i p s else s
  | none => s

theorem autoClose_eq_foldl (s : State) : autoClose s = allInputs.foldl autoCloseAt s := rfl

theorem autoCloseAt_of_not {s : State} {i : Input} (h : s.measureFull i = false) : autoCloseAt s i = s := by
  unfold autoCloseAt
  split
  · simp [h]
  · rfl

/-- The one measuring pass is closed where it has measured Lmax(B) blocks (R13). -/
theorem autoClose_eq {s : State} {i : Input} {p : Pass} (hp : s.pass i = some p) (hf : s.measureFull i = true)
    (ho : ∀ j q, j ≠ i → s.pass j = some q → q.kind ≠ .measure) : autoClose s = closeMeasure i p s := by
  have hi : autoCloseAt s i = closeMeasure i p s := by simp only [autoCloseAt, hp, hf, if_true]
  rw [autoClose_eq_foldl, foldl_once (mem_allInputs i) allInputs_nodup (fun j _ hj => autoCloseAt_of_not ?_) fun j _ _ => ?_]
  · exact hi
  · cases hq : s.pass j with
    | none => simp [State.measureFull, hq]
    | some q => simp [State.measureFull, hq, ho j q hj hq]
  · rw [hi]
    exact autoCloseAt_of_not (by simp [State.measureFull, closeMeasure_running s i p])

/-- Settles O41: the scheduled start, and the automatic close as the close with m = Lmax(B). -/
theorem timelineMovesByItself : Obligations.TimelineMovesByItself := by
  unfold Obligations.TimelineMovesByItself
  intro marked
  have hmark (s : State) (c : Cyc) (l b : Nat) (hs : c.state = .running) (hp : c.pos = some 0) (hl : c.len = some l)
      (hb : c.beats = some b) (hn : c.block = s.cyc.block) : emitMarks (s.withCyc c) = marked s l b (s.withCyc c) := by
    have hk : (s.withCyc c).leavesRunning = s.leavesRunning := State.leavesRunning_congr rfl rfl hn
    rw [emitMarks_top hs hp hl hb, hk]
  refine ⟨fun s hst he => ⟨fun l b hs hn hl hb => ?_, fun hn => ?_⟩,
    fun s i p l n0 hst he hp hk hw hcut hclose ho hl hs hm h1 h2 hfull => ?_⟩
  · have hd : s.startDue = true := by simp [State.startDue, hs, hn]
    simp only [exec, execScheduledStart, unlessStopped, hst, Bool.false_eq_true, if_false,
      settleEnd_of_endSettled he, scheduledStart, hd, if_true]
    exact congrArg _ (hmark s s.cyc.scheduled l b rfl rfl hl hb rfl)
  · have hd : s.startDue = false := by
      simp only [State.startDue, Bool.and_eq_false_iff, decide_eq_false_iff_not]
      exact hn
    simp [exec, execScheduledStart, unlessStopped, hst, settleEnd_of_endSettled he, scheduledStart, hd]
  · intro len
    have hmeas : s.cyc.measured = len := by simp only [Cyc.measured, hm, Option.map_some, Option.getD_some, hfull]; rfl
    have hround : roundCycle len s.cyc.setting = len := roundCycle_lmax h1 h2
    have hlen : 0 < len := lt_of_lt_of_le (by decide) ((le_lmin h1).trans (lmin_le_lmax h1 h2))
    have hf : s.measureFull i = true := by
      have : s.cyc.measured = lmax s.cyc.setting := hmeas
      simp [State.measureFull, hs, this, hp, hk, hw, hcut, hclose]
    have hplace : s.cyc.placeMeasured = { s.cyc with
        state := .running, len := some len, beats := some s.cyc.setting, pos := some 0, count := 1,
        measureStart := none } := by
      simp only [Cyc.placeMeasured, hmeas, hround, Nat.mod_self, Nat.div_self hlen]
    have hmk : emitMarks (s.withCyc s.cyc.placeMeasured) =
        marked s len s.cyc.setting (s.withCyc s.cyc.placeMeasured) :=
      hmark s _ len _ (by rw [hplace]) (by rw [hplace]) (by rw [hplace]) (by rw [hplace]) (by rw [hplace])
    simp only [exec, execMeasureAutoClose, unlessStopped, hst, Bool.false_eq_true, if_false,
      settleEnd_of_endSettled he, autoClose_eq hp hf ho, closeMeasure_eq hp hl, hmeas, hround, lt_irrefl, if_true]
    rw [placedMeasure, hmk, hplace, hmeas, hround]

end Sys2Proof.Machine
end

section
/-! PROOFS. The event router station by station (R189, R190): an event reaches each station by itself, a station that hears
the kind finds it at the tail of its queue, and operations that only append are counted. -/

namespace Sys2Proof.Machine

/-! ## One station at a time -/

/-- Delivery to one station touches no other link or station. -/
def besideLink (lk : Link) (s u : State) : Prop := ∀ j, j ≠ lk → u.link j = s.link j ∧ u.station j = s.station j

theorem besideLink.refl (lk : Link) (s : State) : besideLink lk s s := fun _ _ => ⟨rfl, rfl⟩

theorem besideLink.trans {lk : Link} {s u v : State} (h : besideLink lk s u) (k : besideLink lk u v) :
    besideLink lk s v :=
  fun j hj => ⟨(k j hj).1.trans (h j hj).1, (k j hj).2.trans (h j hj).2⟩

theorem besideLink_withLink (lk : Link) (x : LinkRec) (s : State) : besideLink lk s (s.withLink lk x) :=
  fun _ hj => ⟨State.withLink_link_ne s x hj, rfl⟩

theorem besideLink_withStation (lk : Link) (x : Settings) (s : State) : besideLink lk s (s.withStation lk x) :=
  fun _ hj => ⟨rfl, State.withStation_station_ne s x hj⟩

theorem besideLink_joinEvents (lk : Link) (b : EventBody) (info : BlockInfo) (s : State) :
    besideLink lk s (joinEvents lk b info s) :=
  (besideLink_withLink lk _ s).trans (besideLink_withStation lk _ _)

theorem besideLink_countDropped (lk : Link) (s : State) : besideLink lk s (countDropped lk s) :=
  besideLink_withStation lk _ s

theorem besideLink_queueEvent (lk : Link) (b : EventBody) (info : BlockInfo) (s : State) :
    besideLink lk s (queueEvent lk b info s) := by
  unfold queueEvent
  split
  · exact besideLink_joinEvents _ _ _ _
  · exact besideLink_countDropped _ _

theorem besideLink_queueUrgent (lk : Link) (b : EventBody) (info : BlockInfo) (s : State) :
    besideLink lk s (queueUrgent lk b info s) := by
  unfold queueUrgent
  split
  · exact besideLink_joinEvents _ _ _ _
  · exact ((besideLink_withLink lk _ s).trans (besideLink_countDropped lk _)).trans (besideLink_joinEvents _ _ _ _)

theorem besideLink_endQuiet (lk : Link) (s : State) : besideLink lk s (endQuiet lk s) := by
  simp only [endQuiet]
  split
  · split
    · exact (besideLink_withStation lk _ s).trans (besideLink_queueEvent _ _ _ _)
    · exact besideLink_withStation lk _ s
  · exact besideLink.refl lk s

theorem besideLink_deliver (lk : Link) (b : EventBody) (info : BlockInfo) (s : State) :
    besideLink lk s (deliver lk b info s) := by
  unfold deliver
  split
  · exact besideLink.refl lk s
  · split
    · exact (besideLink_endQuiet lk s).trans (besideLink_queueUrgent _ _ _ _)
    · split
      · exact besideLink.refl lk s
      · split
        · exact besideLink_withStation lk _ s
        · exact besideLink_queueEvent _ _ _ _

/-- `u` holds of one station what `s` does, and the timeline: what an event's delivery to it can depend on. -/
def sameStation (j : Link) (s u : State) : Prop :=
  u.link j = s.link j ∧ u.station j = s.station j ∧ u.cyc = s.cyc

/-- Of a fold of deliveries over different links, a station sees its own. -/
theorem foldl_deliver_at (b : EventBody) (info : BlockInfo) (j : Link) : ∀ (ls : List Link) (s : State), ls.Nodup →
    ∃ s', sameStation j s s' ∧
      (ls.foldl (fun s lk => if b.excludes lk then s else deliver lk b info s) s).link j =
        (if j ∈ ls ∧ b.excludes j = false then deliver j b info s' else s').link j ∧
      (ls.foldl (fun s lk => if b.excludes lk then s else deliver lk b info s) s).station j =
        (if j ∈ ls ∧ b.excludes j = false then deliver j b info s' else s').station j
  | [], s, _ => ⟨s, ⟨rfl, rfl, rfl⟩, by simp⟩
  | lk :: ls, s, hn => by
    obtain ⟨hnot, hn'⟩ := List.nodup_cons.1 hn
    rw [List.foldl_cons]
    obtain ⟨s', ⟨hl, hs, hc⟩, kl, ks⟩ :=
      foldl_deliver_at b info j ls (if b.excludes lk then s else deliver lk b info s) hn'
    by_cases hj : j = lk
    · subst hj
      refine ⟨s, ⟨rfl, rfl, rfl⟩, ?_⟩
      rw [kl, ks, if_neg (fun h => hnot h.1), hl, hs]
      cases b.excludes j <;> simp
    · refine ⟨s', ?_, by simpa [hj] using kl, by simpa [hj] using ks⟩
      split at hl
      · exact ⟨hl, by simp_all, by simp_all⟩
      · next he =>
        rw [if_neg he] at hs hc
        obtain ⟨dl, ds⟩ := besideLink_deliver lk b info s j hj
        exact ⟨hl.trans dl, hs.trans ds, hc.trans (State.inner_fields (onlyEvents_deliver lk b info s).1).1⟩

/-- An event reaches each station by itself (R189). -/
theorem emitAt_at (info : BlockInfo) (b : EventBody) (s : State) (j : Link) (h : b.excludes j = false) :
    ∃ s', sameStation j s s' ∧ (emitAt info b s).link j = (deliver j b info s').link j ∧
      (emitAt info b s).station j = (deliver j b info s').station j := by
  obtain ⟨s', h', kl, ks⟩ := foldl_deliver_at b info j allLinks s (by decide)
  have hm : j ∈ allLinks ∧ b.excludes j = false := ⟨by fin_cases j <;> decide, h⟩
  exact ⟨s', h', by simpa only [emitAt, hm, and_self, if_true] using kl, by
    simpa only [emitAt, hm, and_self, if_true] using ks⟩

theorem sameStation.linkRuns {j : Link} {s u : State} (h : sameStation j s u) : u.linkRuns j = s.linkRuns j := by
  simp only [State.linkRuns, h.1]

/-! ## One delivery -/

theorem joinEvents_link (lk : Link) (b : EventBody) (info : BlockInfo) (s : State) :
    (joinEvents lk b info s).link lk =
      { s.link lk with events := (s.link lk).events ++ [⟨b, info, (s.station lk).missed, b.urgent⟩] } := by
  simp [joinEvents]

theorem joinEvents_station (lk : Link) (b : EventBody) (info : BlockInfo) (s : State) :
    (joinEvents lk b info s).station lk = { s.station lk with missed := false } := by
  simp [joinEvents]

/-- A station that hears an event of an ordinary kind finds it at the tail of its queue (R189). -/
theorem deliver_heard {j : Link} {b : EventBody} {s : State} (hu : b.urgent = false) (hr : s.linkRuns j = true)
    (hs : (s.station j).subs.contains b.kind = true) (hq : (s.station j).quiet = false)
    (hl : (s.link j).events.length < 16) (info : BlockInfo) :
    deliver j b info s = joinEvents j b info s := by
  simp [deliver, hr, hu, hs, hq, queueEvent, hl, -List.contains_eq_mem]

/-- An urgent event meets every station in RUN; where there is room and no quiet to end it just joins (R190). -/
theorem deliver_urgent_room {j : Link} {b : EventBody} {s : State} (hu : b.urgent = true) (hr : s.linkRuns j = true)
    (hq : (s.station j).quiet = false) (hl : (s.link j).events.length < 16) (info : BlockInfo) :
    deliver j b info s = joinEvents j b info s := by
  simp [deliver, hr, hu, endQuiet, hq, queueUrgent, hl]

/-- An urgent event is the newest of every link in RUN (R190). -/
theorem deliver_urgent_last {j : Link} {b : EventBody} {s : State} (hu : b.urgent = true) (hr : s.linkRuns j = true)
    (info : BlockInfo) : ∃ m, ((deliver j b info s).link j).events.getLast? = some ⟨b, info, m, true⟩ := by
  have key : ∀ x : State, ∃ m, ((queueUrgent j b info x).link j).events.getLast? = some ⟨b, info, m, true⟩ := by
    intro x
    unfold queueUrgent
    split <;> exact ⟨_, by rw [joinEvents_link, List.getLast?_concat, hu]⟩
  simpa [deliver, hr, hu] using key (endQuiet j s)

/-! ## Hearing -/

theorem State.hears_iff {s : State} {j : Link} {k : EventKind} {n : Nat} :
    s.hears j k n = true ↔ s.linkRuns j = true ∧ (s.station j).subs.contains k = true ∧ (s.station j).quiet = false ∧
      (s.link j).events.length + n < 16 := by
  simp [State.hears, and_assoc, -List.contains_eq_mem]

theorem State.hears_le {s : State} {j : Link} {k : EventKind} {m n : Nat} (h : s.hears j k n = true) (hm : m ≤ n) :
    s.hears j k m = true := by
  rw [State.hears_iff] at h ⊢
  obtain ⟨hr, hs, hq, hl⟩ := h
  exact ⟨hr, hs, hq, by omega⟩

/-- A station that hears the event has it last in its queue, the rest as before (R189). -/
theorem emitAt_heard {s : State} {j : Link} {k : EventKind} {n : Nat} (h : s.hears j k n = true) (info : BlockInfo)
    (b : EventBody) (hk : b.kind = k) (hx : b.excludes j = false) (hu : b.urgent = false) :
    ((emitAt info b s).link j).events = (s.link j).events ++ [⟨b, info, (s.station j).missed, false⟩] := by
  subst hk
  obtain ⟨s', hs', kl, -⟩ := emitAt_at info b s j hx
  obtain ⟨hr, hs, hq, hl⟩ := State.hears_iff.1 h
  rw [← hs'.linkRuns] at hr
  rw [← hs'.2.1] at hs hq
  rw [← hs'.1] at hl
  rw [kl, deliver_heard hu hr hs hq (by omega), joinEvents_link, hs'.1, hs'.2.1, hu]

theorem emitAt_urgent_room {info : BlockInfo} {b : EventBody} {s : State} {j : Link} (hx : b.excludes j = false)
    (hu : b.urgent = true) (hr : s.linkRuns j = true) (hq : (s.station j).quiet = false)
    (hl : (s.link j).events.length < 16) :
    ((emitAt info b s).link j).events = (s.link j).events ++ [⟨b, info, (s.station j).missed, true⟩] ∧
      ((emitAt info b s).station j) = { s.station j with missed := false } := by
  obtain ⟨s', hs', kl, ks⟩ := emitAt_at info b s j hx
  rw [← hs'.linkRuns] at hr
  rw [← hs'.2.1] at hq
  rw [← hs'.1] at hl
  rw [kl, ks, deliver_urgent_room hu hr hq hl, joinEvents_link, joinEvents_station, hs'.1, hs'.2.1, hu]
  exact ⟨rfl, rfl⟩

theorem emitAt_urgent_last {info : BlockInfo} {b : EventBody} {s : State} {j : Link} (hx : b.excludes j = false)
    (hu : b.urgent = true) (hr : s.linkRuns j = true) :
    ∃ m, ((emitAt info b s).link j).events.getLast? = some ⟨b, info, m, true⟩ := by
  obtain ⟨s', hs', kl, -⟩ := emitAt_at info b s j hx
  rw [kl]
  exact deliver_urgent_last hu (hs'.linkRuns.trans hr) info

/-! ## Appending only -/

/-- `u` has the event queues of `s` with at most `n` further events at each station not in quiet, every one with a body
that `P` holds of; no link state, no subscription and no quiet that is off has changed. -/
structure adds (n : ℕ∞) (P : EventBody → Prop) (s u : State) : Prop where
  runs : ∀ j, u.linkRuns j = s.linkRuns j
  subs : ∀ j, (u.station j).subs = (s.station j).subs
  quiet : ∀ j, (s.station j).quiet = false → (u.station j).quiet = false
  events : ∀ j, ∃ es, (u.link j).events = (s.link j).events ++ es ∧
    ((s.station j).quiet = false → (es.length : ℕ∞) ≤ n) ∧ ∀ e ∈ es, P e.body

theorem adds.trans {m n : ℕ∞} {P : EventBody → Prop} {s u v : State} (h : adds m P s u) (k : adds n P u v) :
    adds (m + n) P s v where
  runs j := (k.runs j).trans (h.runs j)
  subs j := (k.subs j).trans (h.subs j)
  quiet j hq := k.quiet j (h.quiet j hq)
  events j := by
    obtain ⟨es, he, hl, hp⟩ := h.events j
    obtain ⟨fs, hf, kl, kp⟩ := k.events j
    refine ⟨es ++ fs, by rw [hf, he, List.append_assoc], fun hq => ?_, fun e => ?_⟩
    · rw [List.length_append]
      push_cast
      exact add_le_add (hl hq) (kl (h.quiet j hq))
    · rw [List.mem_append]
      rintro (h | h)
      · exact hp e h
      · exact kp e h

theorem adds.mono {m n : ℕ∞} {P Q : EventBody → Prop} {s u : State} (h : adds m P s u) (hn : m ≤ n)
    (hq : ∀ b, P b → Q b) : adds n Q s u where
  runs := h.runs
  subs := h.subs
  quiet := h.quiet
  events j := by
    obtain ⟨es, he, hl, hp⟩ := h.events j
    exact ⟨es, he, fun hq => (hl hq).trans hn, fun e h => hq _ (hp e h)⟩

/-- What leaves every link's state and events, and every station's settings, as they are. -/
theorem adds.of_same {P : EventBody → Prop} {s u : State}
    (hl : ∀ j, (u.link j).state = (s.link j).state ∧ (u.link j).events = (s.link j).events)
    (hs : ∀ j, (u.station j).subs = (s.station j).subs ∧ (u.station j).quiet = (s.station j).quiet) : adds 0 P s u where
  runs j := by simp only [State.linkRuns, (hl j).1]
  subs j := (hs j).1
  quiet j hq := (hs j).2.trans hq
  events j := ⟨[], by simp [(hl j).2], fun _ => by simp, by simp⟩

/-- What leaves the links and the request unit as they are. -/
theorem adds.of_eq {P : EventBody → Prop} {s u : State} (hl : u.slk = s.slk) (hr : u.rqu = s.rqu) : adds 0 P s u :=
  .of_same (fun j => by simp [State.link, hl]) (fun j => by simp [State.station, hr])

theorem adds.refl (P : EventBody → Prop) (s : State) : adds 0 P s s := .of_eq rfl rfl

theorem adds.le {m n : ℕ∞} {P : EventBody → Prop} {s u : State} (h : adds m P s u) (hn : m ≤ n) : adds n P s u :=
  h.mono hn fun _ => id

/-- Events counted or not. -/
theorem adds.top {n : ℕ∞} {P : EventBody → Prop} {s u : State} (h : adds n P s u) : adds ⊤ P s u := h.le le_top

/-- What appends nothing. -/
theorem adds.none {n : ℕ∞} {P : EventBody → Prop} {s u : State} (h : adds 0 P s u) : adds n P s u :=
  h.le zero_le

/-- Two operations of which the first writes no links. -/
theorem adds.after {n : ℕ∞} {P : EventBody → Prop} {s u v : State} (h : adds 0 P s u) (k : adds n P u v) :
    adds n P s v := by
  simpa using h.trans k

/-- Two operations of which the second writes no links. -/
theorem adds.andThen {n : ℕ∞} {P : EventBody → Prop} {s u v : State} (h : adds n P s u) (k : adds 0 P u v) :
    adds n P s v := by
  simpa using h.trans k

theorem adds_withCyc {P : EventBody → Prop} (x : Cyc) (s : State) : adds 0 P s (s.withCyc x) := .of_eq rfl rfl

theorem adds_withPgp {P : EventBody → Prop} (x : Pgp) (s : State) : adds 0 P s (s.withPgp x) := .of_eq rfl rfl

theorem adds_withTrack {P : EventBody → Prop} (t : TrackId) (x : Track) (s : State) : adds 0 P s (s.withTrack t x) :=
  .of_eq rfl rfl

theorem adds_withLayer {P : EventBody → Prop} (id : LayerId) (x : Option Layer) (s : State) :
    adds 0 P s (s.withLayer id x) := .of_eq rfl rfl

theorem adds_withInput {P : EventBody → Prop} (i : Input) (x : InputRec) (s : State) : adds 0 P s (s.withInput i x) :=
  .of_eq rfl rfl

theorem adds_withPass {P : EventBody → Prop} (i : Input) (x : Option Pass) (s : State) : adds 0 P s (s.withPass i x) :=
  .of_eq rfl rfl

theorem adds_withMem {P : EventBody → Prop} (x : List Host.Cell) (s : State) : adds 0 P s (s.withMem x) := .of_eq rfl rfl

theorem adds_withAqu {P : EventBody → Prop} (x : Aqu) (s : State) : adds 0 P s (s.withAqu x) := .of_eq rfl rfl

theorem adds_withMxe {P : EventBody → Prop} (x : Mxe) (s : State) : adds 0 P s (s.withMxe x) := .of_eq rfl rfl

theorem adds_withBne {P : EventBody → Prop} (x : Bne) (s : State) : adds 0 P s (s.withBne x) := .of_eq rfl rfl

theorem adds_withTmc {P : EventBody → Prop} (x : Tmc) (s : State) : adds 0 P s (s.withTmc x) := .of_eq rfl rfl

theorem adds_ite {n : ℕ∞} {P : EventBody → Prop} {s u v : State} {c : Prop} [Decidable c] (h : adds n P s u)
    (k : adds n P s v) : adds n P s (if c then u else v) := by
  split
  · exact h
  · exact k

theorem adds_foldl {α : Type} {n : ℕ∞} {P : EventBody → Prop} {f : State → α → State}
    (h : ∀ s x, adds n P s (f s x)) : ∀ (xs : List α) (s : State), adds (xs.length * n) P s (xs.foldl f s)
  | [], s => by simpa using adds.refl P s
  | x :: xs, s => by
    have := (h s x).trans (adds_foldl h xs (f s x))
    refine this.le (le_of_eq ?_)
    rw [List.length_cons]
    push_cast
    rw [add_mul, one_mul, add_comm]

/-- A fold of operations that append nothing. -/
theorem adds_foldl_zero {α : Type} {P : EventBody → Prop} {f : State → α → State} (h : ∀ s x, adds 0 P s (f s x))
    (xs : List α) (s : State) : adds 0 P s (xs.foldl f s) := by
  simpa using adds_foldl h xs s

/-- A fold of operations that append what they like of a kind. -/
theorem adds_foldl_top {α : Type} {P : EventBody → Prop} {f : State → α → State} (h : ∀ s x, adds ⊤ P s (f s x))
    (xs : List α) (s : State) : adds ⊤ P s (xs.foldl f s) :=
  (adds_foldl h xs s).top

theorem adds.runs_of {n : ℕ∞} {P : EventBody → Prop} {s u : State} (h : adds n P s u) : u.linkRuns = s.linkRuns :=
  funext h.runs

/-- Who hears a kind with room for `m + n` events hears it with room for `n` after `m` at most. -/
theorem adds.hears {a : ℕ∞} {m : Nat} {P : EventBody → Prop} {s u : State} (h : adds a P s u) (ha : a ≤ m) {j : Link}
    {k : EventKind} {n : Nat} (hh : s.hears j k (m + n) = true) : u.hears j k n = true := by
  obtain ⟨hr, hs, hq, hl⟩ := State.hears_iff.1 hh
  obtain ⟨es, he, hm, -⟩ := h.events j
  have hlen : es.length ≤ m := by exact_mod_cast (hm hq).trans ha
  refine State.hears_iff.2 ⟨(h.runs j).trans hr, by rw [h.subs j]; exact hs, h.quiet j hq, ?_⟩
  rw [he, List.length_append]
  omega

/-- An event once in a queue stays there. -/
theorem adds.mem {n : ℕ∞} {P : EventBody → Prop} {s u : State} (h : adds n P s u) {j : Link} {e : Event}
    (he : e ∈ (s.link j).events) : e ∈ (u.link j).events := by
  obtain ⟨es, heq, -⟩ := h.events j
  rw [heq]
  exact List.mem_append_left _ he

/-- An event that was not in a queue before is one of the kind the operation appends. -/
theorem adds.new {n : ℕ∞} {P : EventBody → Prop} {s u : State} (h : adds n P s u) {j : Link} {e : Event}
    (he : e ∈ (u.link j).events) (hn : e ∉ (s.link j).events) : P e.body := by
  obtain ⟨es, heq, -, hp⟩ := h.events j
  rw [heq, List.mem_append] at he
  exact hp e (he.resolve_left hn)

/-! ## What appends at most one event -/

theorem adds_queueEvent {P : EventBody → Prop} {b : EventBody} (hp : P b) (j : Link) (info : BlockInfo) (s : State) :
    ∃ es, ((queueEvent j b info s).link j).events = (s.link j).events ++ es ∧ es.length ≤ 1 ∧ ∀ e ∈ es, P e.body := by
  unfold queueEvent
  split
  · exact ⟨_, by rw [joinEvents_link], by simp, by simp [hp]⟩
  · exact ⟨[], by simp [countDropped], by simp, by simp⟩

theorem queueEvent_station (j : Link) (b : EventBody) (info : BlockInfo) (s : State) :
    ((queueEvent j b info s).station j).subs = (s.station j).subs ∧
      ((queueEvent j b info s).station j).quiet = (s.station j).quiet := by
  unfold queueEvent
  split
  · simp [joinEvents_station]
  · simp [countDropped]

/-- An event that is not urgent appends at most itself (R189). -/
theorem adds_emitAt {P : EventBody → Prop} {b : EventBody} (hu : b.urgent = false) (hx : ∀ j, b.excludes j = false)
    (hp : P b) (info : BlockInfo) (s : State) : adds 1 P s (emitAt info b s) := by
  have ordinary : ∀ (j : Link) (x : State), ((deliver j b info x).station j).subs = (x.station j).subs ∧
      ((deliver j b info x).station j).quiet = (x.station j).quiet ∧
      ∃ es, ((deliver j b info x).link j).events = (x.link j).events ++ es ∧ es.length ≤ 1 ∧ ∀ e ∈ es, P e.body := by
    intro j x
    unfold deliver
    split
    · exact ⟨rfl, rfl, [], by simp⟩
    · rw [if_neg (by simp [hu])]
      split
      · exact ⟨rfl, rfl, [], by simp⟩
      · split
        · exact ⟨by simp, by simp, [], by simp⟩
        · exact ⟨(queueEvent_station j b info x).1, (queueEvent_station j b info x).2, adds_queueEvent hp j info x⟩
  refine ⟨fun j => (onlyEvents_emitAt info b s).linkRuns j, fun j => ?_, fun j hq => ?_, fun j => ?_⟩ <;>
    obtain ⟨s', hs', kl, ks⟩ := emitAt_at info b s j (hx j) <;> obtain ⟨h1, h2, es, h3, h4, h5⟩ := ordinary j s'
  · rw [ks, h1, hs'.2.1]
  · rw [ks, h2, hs'.2.1, hq]
  · exact ⟨es, by rw [kl, h3, hs'.1], fun _ => by exact_mod_cast h4, h5⟩

theorem adds_emit {P : EventBody → Prop} {b : EventBody} (hu : b.urgent = false) (hx : ∀ j, b.excludes j = false)
    (hp : P b) (s : State) : adds 1 P s (emit b s) := adds_emitAt hu hx hp s.info s

/-- A reply leaves the event queues as they are. -/
theorem pushReply_events (lk : Link) (r : Reply) (s : State) (j : Link) :
    ((pushReply lk r s).link j).events = (s.link j).events := by
  unfold pushReply
  split
  · rw [State.withLink_link]
    split
    · next h => rw [h]
    · rfl
  · rfl

/-- A reply appends no event. -/
theorem adds_pushReply {P : EventBody → Prop} (lk : Link) (r : Reply) (s : State) : adds 0 P s (pushReply lk r s) := by
  unfold pushReply
  split
  · refine .of_same (fun j => ?_) fun j => ⟨rfl, rfl⟩
    rw [State.withLink_link]
    split
    · next h => subst h; exact ⟨rfl, rfl⟩
    · exact ⟨rfl, rfl⟩
  · exact .refl P s

theorem adds_reply {P : EventBody → Prop} (lk : Link) (a b : Byte) (k : Bool) (c : ReplyCode) (p : Payload) (s : State) :
    adds 0 P s (reply lk a b k c p s) := adds_pushReply ..

/-- The end of a quiet appends at most its summary, and only to that station (R191). -/
theorem adds_endQuiet {P : EventBody → Prop} (hp : ∀ ks, P (.quietSummary ks)) (lk : Link) (s : State) :
    adds 0 P s (endQuiet lk s) := by
  have hb := besideLink_endQuiet lk s
  have own : ((endQuiet lk s).station lk).subs = (s.station lk).subs ∧
      ((endQuiet lk s).station lk).quiet = false ∧
      ∃ es, ((endQuiet lk s).link lk).events = (s.link lk).events ++ es ∧
        ((s.station lk).quiet = false → es = []) ∧ ∀ e ∈ es, P e.body := by
    simp only [endQuiet]
    split
    · next hq =>
      split
      · obtain ⟨h1, h2⟩ := queueEvent_station lk (.quietSummary (s.station lk).pendingKinds) s.info
          (s.withStation lk { s.station lk with quiet := false, pendingKinds := [] })
        obtain ⟨es, h3, -, h5⟩ := adds_queueEvent (P := P) (hp _) lk s.info
          (s.withStation lk { s.station lk with quiet := false, pendingKinds := [] })
        exact ⟨by simpa using h1, by simpa using h2, es, by simpa using h3, by simp [hq], h5⟩
      · exact ⟨by simp, by simp, [], by simp⟩
    · next hq => exact ⟨rfl, by simpa using hq, [], by simp⟩
  refine ⟨(onlyEvents_endQuiet lk s).linkRuns, fun j => ?_, fun j hq => ?_, fun j => ?_⟩ <;>
    (by_cases hj : j = lk; swap; obtain ⟨hl, hs⟩ := hb j hj; swap; subst j; obtain ⟨h1, h2, es, h3, h4, h5⟩ := own)
  · exact h1
  · rw [hs]
  · exact h2
  · rw [hs, hq]
  · exact ⟨es, h3, fun hq => by simp [h4 hq], h5⟩
  · exact ⟨[], by simp [hl], fun _ => by simp, by simp⟩

/-- The taking of a request appends at most the summary of the quiet it ends (R183, R191). -/
theorem adds_taken {P : EventBody → Prop} (hp : ∀ ks, P (.quietSummary ks)) (lk : Link) (e : Bool) (s : State) :
    adds 0 P s (taken lk e s) := by
  have pop : adds 0 P s (popRequest lk s) := by
    refine .of_same (fun j => ?_) fun j => ?_
    · rw [popRequest_link]
      split
      · next h => subst h; exact ⟨rfl, rfl⟩
      · exact ⟨rfl, rfl⟩
    · rw [popRequest_station]; exact ⟨rfl, rfl⟩
  unfold taken
  split
  · exact pop.after (adds_endQuiet hp lk _)
  · exact pop

end Sys2Proof.Machine
end

section
/-! PROOFS. The end of a wake (R158): the restart of a PAUSED song, the bounce that goes on, and the events in their
order. -/

namespace Sys2Proof.Machine

/-! ## Marks as events -/

theorem adds_sendMarks {P : EventBody → Prop} (hb : ∀ n, P (.beatMark n)) (hc : ∀ l b, P (.cycleMark l b))
    (l b p : Nat) (s : State) : adds 2 P s (sendMarks l b p s) := by
  have beat := adds_emit (s := s) rfl (fun _ => rfl) (hb (p / (l / b)))
  unfold sendMarks
  split
  · exact (beat.trans (adds_emit rfl (fun _ => rfl) (hc l b) _)).le (by norm_num)
  · exact beat.le (by norm_num)

theorem adds_sendBlockMarks {P : EventBody → Prop} (hb : ∀ n, P (.beatMark n)) (hc : ∀ l b, P (.cycleMark l b))
    (s : State) : adds 2 P s (sendBlockMarks s) := by
  unfold sendBlockMarks
  split
  · exact adds_sendMarks hb hc _ _ _ s
  · exact (adds.refl P s).none

theorem adds_emitMarks {P : EventBody → Prop} (hb : ∀ n, P (.beatMark n)) (hc : ∀ l b, P (.cycleMark l b)) (s : State) :
    adds 2 P s (emitMarks s) := by
  obtain h | h | h := emitMarks_cases s <;> rw [h]
  · exact (adds.refl P s).none
  · exact (adds_withCyc _ s).none
  · exact adds_sendBlockMarks hb hc s

/-- A station that hears both marks finds them in their order at the tail of its queue (R16). -/
theorem marks_heard {s : State} {j : Link} {n l b : Nat} (hb : s.hears j .beatMark (n + 1) = true)
    (hc : s.hears j .cycleMark (n + 1) = true) :
    ((emit (.cycleMark l b) (emit (.beatMark 0) s)).link j).events.map (·.body) =
      (s.link j).events.map (·.body) ++ [.beatMark 0, .cycleMark l b] := by
  have h1 := emitAt_heard hb s.info (.beatMark 0) rfl rfl rfl
  have adds1 : adds 1 (fun _ => True) s (emit (.beatMark 0) s) := adds_emit rfl (fun _ => rfl) trivial s
  have hears := adds1.hears (m := 1) (by simp) (j := j) (k := .cycleMark) (n := n) (by rw [Nat.add_comm]; exact hc)
  have h2 := emitAt_heard hears (emit (.beatMark 0) s).info (.cycleMark l b) rfl rfl rfl
  rw [emit, h2, emit, h1]
  simp

/-- Delivery commutes with a change of the timeline. -/
theorem onlyEvents.withCyc {s u : State} (h : onlyEvents s u) (x : Cyc) :
    onlyEvents (s.withCyc x) (u.withCyc x) := by
  obtain ⟨h1, h2⟩ := h
  refine ⟨?_, h2⟩
  have : (u.inner).withCyc x = (s.inner).withCyc x := by rw [h1]
  exact this

/-- Marks after events: but for the note of the withheld ones, events. -/
theorem onlyEvents.emitMarks {s u : State} (h : onlyEvents s u) :
    ∃ w, onlyEvents (s.withCyc { s.cyc with withheld := w }) (emitMarks u) := by
  obtain ⟨w, k, -⟩ := emitMarks_onlyEvents u
  rw [(State.inner_fields h.1).1] at k
  exact ⟨w, (h.withCyc _).trans k⟩

/-! ## The state a wake leaves before its events -/

/-- A controller whose hold has ended (R158). -/
def Tmc.awake (m : Tmc) : Tmc :=
  { m with mem := .active, holdCause := none, holdStation := none, holdEntry := none, wakeCause := none, wakeEnd := none }

/-- The hub at the end of a wake, before its events. -/
def woken (s : State) : State :=
  unsuspend (if s.cyc.state = .paused then restart (s.withTmc s.tmc.awake) else s.withTmc s.tmc.awake)

theorem wake_eq {s : State} {cause : WakeCause} (h : s.wakeDue = true) (hc : s.tmc.wakeCause = some cause) :
    wake s =
      if s.cyc.state = .paused then emitMarks (emit (.holdActive cause (woken s).cyc.state) (woken s))
      else emit (.holdActive cause (woken s).cyc.state) (woken s) := by
  by_cases hp : s.cyc.state = .paused <;> simp [wake, h, hc, woken, Tmc.awake, hp]

theorem unsuspend_frame (s : State) : unsuspend s = s.withBne (unsuspend s).bne := by
  unfold unsuspend
  split
  · split <;> rfl
  · rfl

theorem unsuspend_of_not {s : State} (h : s.bne.engine ≠ .suspended) : unsuspend s = s := if_neg h

/-- A suspended bounce puts its next stroke in flight (R143). -/
theorem unsuspend_of_suspended {s : State} {b : Bounce} {n : Nat} (h : s.bne.engine = .suspended)
    (ha : s.bne.active = some b) (hn : s.trackLen b.track = some n) :
    (unsuspend s).bne = { s.bne with
      engine := b.mode.engine, active := some { b with stroke := some (b.done, strokeCost b.mode b.count n b.done) } } := by
  simp only [unsuspend, h, ha, hn, if_true, Option.getD_some]
  rfl

/-- Beside the timeline, the tracks, the bounce and the controller a wake changes nothing. -/
theorem woken_frame (s : State) :
    woken s = { s with
      tmc := s.tmc.awake, lys.tracks := (woken s).lys.tracks, bne := (woken s).bne,
      cyc := if s.cyc.state = .paused then { s.cyc with state := .running, pos := some 0, count := 0 } else s.cyc } := by
  have key : ∃ x b, woken s = { s with
      tmc := s.tmc.awake, lys.tracks := x, bne := b,
      cyc := if s.cyc.state = .paused then { s.cyc with state := .running, pos := some 0, count := 0 } else s.cyc } := by
    unfold woken
    rw [unsuspend_frame]
    split
    · obtain ⟨hc, hf⟩ := restart_frame (s.withTmc s.tmc.awake)
      rw [hc] at hf
      rw [hf]
      exact ⟨_, _, rfl⟩
    · exact ⟨s.lys.tracks, _, rfl⟩
  obtain ⟨x, b, h⟩ := key
  rw [h]

theorem woken_cyc (s : State) : (woken s).cyc =
    if s.cyc.state = .paused then { s.cyc with state := .running, pos := some 0, count := 0 } else s.cyc := by
  rw [woken_frame s]

theorem woken_track (s : State) (t : TrackId) : (woken s).track t =
    if s.cyc.state = .paused ∧ (s.track t).state ≠ .empty then { s.track t with anchor := some 0 } else s.track t := by
  unfold woken
  rw [unsuspend_frame, State.withBne_track]
  by_cases hp : s.cyc.state = .paused
  · rw [if_pos hp, restart_track, State.withTmc_track]
    by_cases he : (s.track t).state = .empty <;> simp [hp, he]
  · simp [hp]

theorem woken_bne_of_not {s : State} (h : s.bne.engine ≠ .suspended) : (woken s).bne = s.bne := by
  unfold woken
  split
  · have hb : (restart (s.withTmc s.tmc.awake)).bne = s.bne := by rw [(restart_frame _).2]; rfl
    rw [unsuspend_of_not (by rwa [hb]), hb]
  · rw [unsuspend_of_not (s := s.withTmc s.tmc.awake) h]
    rfl

theorem woken_bne {s : State} {b : Bounce} {k l : Nat} (h : s.bne.engine = .suspended) (ha : s.bne.active = some b)
    (hk : (s.track b.track).mult = some k) (hl : s.cyc.len = some l) :
    (woken s).bne = { s.bne with
      engine := b.mode.engine,
      active := some { b with stroke := some (b.done, strokeCost b.mode b.count (k * l) b.done) } } := by
  unfold woken
  split
  · obtain ⟨hc, hf⟩ := restart_frame (s.withTmc s.tmc.awake)
    have hb : (restart (s.withTmc s.tmc.awake)).bne = s.bne := by rw [hf]; rfl
    have hn : (restart (s.withTmc s.tmc.awake)).trackLen b.track = some (k * l) := by
      have hm : ((restart (s.withTmc s.tmc.awake)).track b.track).mult = some k := by
        rw [restart_track, State.withTmc_track]
        split <;> exact hk
      simp only [State.trackLen, hm, hc, State.withTmc_cyc, hl]
    rw [unsuspend_of_suspended (by rw [hb, h]) (by rw [hb, ha]) hn, hb]
  · exact unsuspend_of_suspended (s := s.withTmc s.tmc.awake) h ha (by simp [State.trackLen, hk, hl])

/-! ## WAKE_END -/

/-- HOLD_STATE and the marks of a restart, at a station that hears both marks (R158, log 39). -/
theorem woken_events {s : State} {j : Link} {cause : WakeCause} {l b : Nat} (hp : s.cyc.state = .paused)
    (hl : s.cyc.len = some l) (hb : s.cyc.beats = some b) (hB : s.hears j .beatMark 3 = true)
    (hC : s.hears j .cycleMark 3 = true) :
    ((emitMarks (emit (.holdActive cause .running) (woken s))).link j).events.map (·.body) =
      (s.link j).events.map (·.body) ++
        (if (woken s).leavesRunning then [.holdActive cause .running]
         else [.holdActive cause .running, .beatMark 0, .cycleMark l b]) := by
  have hw := woken_frame s
  have hlink : (woken s).link j = s.link j := by rw [hw]; rfl
  have hstation : (woken s).station j = s.station j := by rw [hw]; rfl
  have hcyc : (woken s).cyc = { s.cyc with state := .running, pos := some 0, count := 0 } := by
    rw [woken_cyc, if_pos hp]
  obtain ⟨hr, hsB, hq, hlen⟩ := State.hears_iff.1 hB
  obtain ⟨-, hsC, -, -⟩ := State.hears_iff.1 hC
  have hruns : (woken s).linkRuns j = true := by simpa only [State.linkRuns, hlink] using hr
  have hwq : ((woken s).station j).quiet = false := by rw [hstation, hq]
  have hwlen : ((woken s).link j).events.length < 16 := by rw [hlink]; omega
  obtain ⟨he, hs⟩ := emitAt_urgent_room (info := (woken s).info) (b := .holdActive cause .running) rfl rfl hruns hwq hwlen
  have hu := onlyEvents_emit (.holdActive cause .running) (woken s)
  have hucyc : (emit (.holdActive cause .running) (woken s)).cyc = (woken s).cyc := (State.inner_fields hu.1).1
  have hears : ∀ k, (s.station j).subs.contains k = true →
      (emit (.holdActive cause .running) (woken s)).hears j k 2 = true := by
    intro k hk
    refine State.hears_iff.2 ⟨(hu.linkRuns j).trans hruns, ?_, ?_, ?_⟩
    · rw [emit, hs, hstation]; exact hk
    · rw [emit, hs]; exact hwq
    · rw [emit, he, hlink, List.length_append]; simp only [List.length_singleton]; omega
  have hev : ((emit (.holdActive cause .running) (woken s)).link j).events.map (·.body) =
      (s.link j).events.map (·.body) ++ [.holdActive cause .running] := by
    rw [emit, he, hlink]; simp
  have hleave : (emit (.holdActive cause .running) (woken s)).leavesRunning = (woken s).leavesRunning := by
    obtain ⟨h1, -, -, -, h2, -, -, h3, -⟩ := State.inner_fields hu.1
    exact State.leavesRunning_congr h2 h3 (by rw [h1])
  rw [emitMarks_top (s := emit (.holdActive cause .running) (woken s)) (by rw [hucyc, hcyc]) (by rw [hucyc, hcyc])
    (by rw [hucyc, hcyc, ← hl]) (by rw [hucyc, hcyc, ← hb]), hleave]
  split
  · rw [State.withCyc_link, hev]
  · rw [marks_heard (n := 1) (hears _ hsB) (hears _ hsC), hev]
    simp

/-- Settles O51: the state before the events (`woken`), then HOLD_STATE and the marks. -/
theorem wakeEndsTheHold : Obligations.WakeEndsTheHold := by
  intro s cause hstop hend hmem hcause
  have hexec : exec .wakeEnd s = .next (wake s) := by
    have : exec .wakeEnd s = unlessStopped s fun s => wake (settleEnd s) := rfl
    rw [this, unlessStopped, hstop, settleEnd_of_endSettled hend]
    rfl
  refine ⟨fun hn => ?_, fun hw => ?_⟩
  · rw [hexec, wake, if_neg (by simp [State.wakeDue, hn])]
  have hdue : s.wakeDue = true := by simp [State.wakeDue, hmem, hw]
  refine ⟨wake s, hexec, ?_⟩
  have hframe := woken_frame s
  have hheld := onlyEvents_emit (.holdActive cause (woken s).cyc.state) (woken s)
  -- but for the marks withheld, a wake differs from `woken` in events alone
  obtain ⟨w, hevents, hwithheld⟩ : ∃ w, onlyEvents ((woken s).withCyc { (woken s).cyc with withheld := w }) (wake s) ∧
      (s.cyc.state ≠ .paused → w = (woken s).cyc.withheld) := by
    rw [wake_eq hdue hcause]
    split
    · next hp =>
      obtain ⟨w, h⟩ := hheld.emitMarks
      exact ⟨w, h, fun hn => absurd hp hn⟩
    · exact ⟨_, hheld, fun _ => rfl⟩
  obtain ⟨fcyc, flys, fpgp, fpse, faqu, fmxe, fbne, ftmc, -, fmem, -⟩ := State.inner_fields hevents.1
  have htrack : ∀ u, (wake s).track u = (woken s).track u := hevents.reads.1
  refine ⟨?_, ?_, ?_, ?_, ?_, ?_, ?_, ?_, ?_, ?_, ?_, ?_⟩
  · rw [ftmc, State.withCyc_tmc, hframe]; rfl
  · intro hp
    refine ⟨?_, fun u => ?_⟩
    · rw [fcyc, hwithheld hp, State.withCyc_cyc, woken_cyc, if_neg hp]
    · rw [htrack, woken_track, if_neg fun h => hp h.1]
  · intro hp l b hl hb
    have hwcyc : (woken s).cyc = { s.cyc with state := .running, pos := some 0, count := 0 } := by
      rw [woken_cyc, if_pos hp]
    intro known
    have hknown : (woken s).leavesRunning = known := by
      have : (woken s).leavesRunning = ((s.withTmc s.tmc.awake)).leavesRunning :=
        State.leavesRunning_congr (by rw [hframe]; rfl) (by rw [hframe]; rfl) (by rw [hwcyc]; rfl)
      rw [this]
      simp only [State.leavesRunning, known]
      rfl
    refine ⟨?_, fun u => ?_, fun j hB hC => ?_⟩
    · have hrun : (emit (.holdActive cause (woken s).cyc.state) (woken s)).cyc = (woken s).cyc :=
        (State.inner_fields hheld.1).1
      have hleave : (emit (.holdActive cause (woken s).cyc.state) (woken s)).leavesRunning = known := by
        obtain ⟨h1, -, -, -, h2, -, -, h3, -⟩ := State.inner_fields hheld.1
        rw [State.leavesRunning_congr h2 h3 (by rw [h1]), hknown]
      rw [wake_eq hdue hcause, if_pos hp, emitMarks_top (by rw [hrun, hwcyc]) (by rw [hrun, hwcyc])
        (by rw [hrun, hwcyc, ← hl]) (by rw [hrun, hwcyc, ← hb]), hleave]
      split
      · next hk => rw [State.withCyc_cyc, hrun, hwcyc, hk]; rfl
      · next hk =>
        have he := (onlyEvents_emit (.beatMark 0) (emit (.holdActive cause (woken s).cyc.state) (woken s))).trans
          (onlyEvents_emit (.cycleMark l b) _)
        rw [(State.inner_fields he.1).1, hrun, hwcyc, Bool.not_eq_true _ |>.mp hk]
        rfl
    · rw [htrack, woken_track]
      by_cases he : (s.track u).state = .empty <;> simp [hp, he]
    · have hst : (woken s).cyc.state = .running := by rw [hwcyc]
      rw [wake_eq hdue hcause, if_pos hp, hst, woken_events hp hl hb hB hC, hknown]
  · intro hn
    rw [fbne, State.withCyc_bne, woken_bne_of_not hn]
  · intro b k l hs ha hk hl
    rw [fbne, State.withCyc_bne, woken_bne hs ha hk hl]
    rfl
  · rw [flys, State.withCyc_lys, hframe]
  · rw [fpse, State.withCyc_pse, hframe]
  · rw [fpgp, State.withCyc_pgp, hframe]
  · rw [faqu, State.withCyc_aqu, hframe]
  · rw [fmxe, State.withCyc_mxe, hframe]
  · rw [fmem, State.withCyc_mem, hframe]
  · intro j hj
    have hstate : (wake s).cyc.state = (woken s).cyc.state := by rw [fcyc]; rfl
    have hruns : (woken s).linkRuns j = true := by rw [hframe]; exact hj
    obtain ⟨m, hm⟩ := emitAt_urgent_last (info := (woken s).info) (b := .holdActive cause (woken s).cyc.state) rfl rfl hruns
    have hmem := List.mem_of_getLast? hm
    refine ⟨⟨.holdActive cause (woken s).cyc.state, (woken s).info, m, true⟩, ?_, by rw [hstate]⟩
    rw [wake_eq hdue hcause]
    split
    · exact (adds_emitMarks (P := fun _ => True) (fun _ => trivial) (fun _ _ => trivial) _).mem hmem
    · exact hmem

end Sys2Proof.Machine
end

section
/-! PROOFS. HOLD (R151, R154, R21): what the cuts of a hold leave, the stop of the timeline, and HOLD_STATE last. -/

namespace Sys2Proof.Machine

/-! ## What an operation on one pass leaves alone -/

/-- `u` is `s` but for what an operation on the pass of input `i` may change: no other input, and no timeline that is not
MEASURING. -/
structure ownPass (i : Input) (s u : State) : Prop where
  cyc : s.cyc.state ≠ .measuring → u.cyc = s.cyc
  inputs : ∀ j, j ≠ i → u.input j = s.input j
  openings : u.pse.openings = s.pse.openings

theorem ownPass.refl (i : Input) (s : State) : ownPass i s s := ⟨fun _ => rfl, fun _ _ => rfl, rfl⟩

theorem ownPass.trans {i : Input} {s u v : State} (h : ownPass i s u) (k : ownPass i u v) : ownPass i s v where
  cyc hs := by
    have hu := h.cyc hs
    rw [k.cyc (by rwa [hu]), hu]
  inputs j hj := (k.inputs j hj).trans (h.inputs j hj)
  openings := k.openings.trans h.openings

theorem ownPass_ite {i : Input} {s u v : State} {c : Prop} [Decidable c] (h : ownPass i s u) (k : ownPass i s v) :
    ownPass i s (if c then u else v) := by
  split
  · exact h
  · exact k

theorem ownPass.of_eq {i : Input} {s u : State} (hc : u.cyc = s.cyc) (hp : u.pse = s.pse) : ownPass i s u :=
  ⟨fun _ => hc, fun j _ => by simp only [State.input, hp], by rw [hp]⟩

theorem onlyStore.ownPass {s u : State} (h : onlyStore s u) (i : Input) : ownPass i s u := by
  obtain ⟨hc, hp, -⟩ := h.fields
  exact .of_eq hc hp

theorem onlyEvents.ownPass {s u : State} (h : onlyEvents s u) (i : Input) : ownPass i s u := h.store.ownPass i

theorem ownPass_storeBlock (i : Input) (id : LayerId) (pos : Nat) (b : Block) (s : State) :
    ownPass i s (storeBlock id pos b s) := by
  rw [(storeBlock_mem id pos b s).1]
  exact .of_eq rfl rfl

theorem ownPass_rampEnds (i : Input) (id : LayerId) (s : State) : ownPass i s (rampEnds id s) := by
  unfold rampEnds
  split
  · exact .refl i s
  · split
    · exact ownPass_storeBlock ..
    · exact (ownPass_storeBlock ..).trans (ownPass_storeBlock ..)

theorem ownPass_withInput (i : Input) (x : InputRec) (s : State) : ownPass i s (s.withInput i x) :=
  ⟨fun _ => rfl, fun j hj => by rw [State.withInput_input, if_neg hj], rfl⟩

theorem ownPass_clearPass (late : Bool) (i : Input) (s : State) : ownPass i s (clearPass late i s) :=
  ownPass_withInput ..

theorem ownPass_stopMeasuring (i : Input) (kind : PassKind) (s : State) : ownPass i s (stopMeasuring kind s) := by
  refine ⟨fun hs => ?_, fun j _ => ?_, ?_⟩
  · simp [stopMeasuring, hs]
  all_goals
    unfold stopMeasuring
    split <;> rfl

/-- The end of a pass that leaves nothing (R91, R88). -/
theorem ownPass_dropPass (late : Bool) (i : Input) (p : Pass) (s : State) :
    ownPass i s (stopMeasuring p.kind (settleTrack p.track (dropLayer p.layer (clearPass late i s)))) :=
  ((ownPass_clearPass late i s).trans ((onlyStore_dropLayer _ _).trans (onlyStore_settleTrack _ _) |>.ownPass i)).trans
    (ownPass_stopMeasuring ..)

theorem ownPass_finishCut (cause : CutCause) (i : Input) (s : State) : ownPass i s (finishCut cause i s) := by
  unfold finishCut
  split
  · exact .refl i s
  · next p _ =>
    simp only
    split
    · exact (ownPass_dropPass false i p s).trans (((onlyStore_lowMark _).ownPass i).trans ((onlyEvents_emit ..).ownPass i))
    · exact (((ownPass_clearPass false i s).trans (ownPass_rampEnds ..)).trans
        ((onlyStore_mapLayer ..).ownPass i)).trans ((onlyEvents_emit ..).ownPass i)

theorem ownPass_withPass (i : Input) (p : Option Pass) (s : State) : ownPass i s (s.withPass i p) :=
  ownPass_withInput ..

/-- What a cut fixes: inputs it leaves alone, and a timeline that is not MEASURING (R90). -/
theorem ownPass_fixAtCut (i : Input) (marks : Bool) (p : Pass) (s : State) : ownPass i s (fixAtCut marks p s) := by
  have hpse : (fixAtCut marks p s).pse = s.pse := by
    unfold fixAtCut
    split
    · rfl
    · split
      · refine ((onlyStore_fixLength ..).trans (onlyStore_trimTo ..)).fields.2.1.trans ?_
        split
        · obtain ⟨w, h, -⟩ := emitMarks_onlyEvents (s.withCyc s.cyc.placeMeasured)
          exact h.store.fields.2.1
        · rfl
      · rfl
    · split
      · split
        · exact (onlyStore_fixLength ..).fields.2.1
        · rfl
      · rfl
  refine ⟨fun hs => ?_, fun j _ => by simp only [State.input, hpse], by rw [hpse]⟩
  unfold fixAtCut
  split
  · rfl
  · rw [if_neg (by simp [hs])]
  · split
    · split
      · exact (onlyStore_fixLength ..).fields.1
      · rfl
    · rfl

theorem ownPass_cutPass (cause : CutCause) (marks : Bool) (i : Input) (s : State) :
    ownPass i s (cutPass cause marks i s) := by
  unfold cutPass
  split
  · exact .refl i s
  · next p _ =>
    split
    · exact .refl i s
    · simp only
      split
      · exact (ownPass_fixAtCut i marks p s).trans (ownPass_withPass ..)
      · exact (ownPass_fixAtCut i marks p s).trans (ownPass_finishCut ..)

/-! ## A cut leaves no pass uncut -/

theorem State.pass_eq_input (s : State) (i : Input) : s.pass i = (s.input i).pass := rfl

theorem ownPass.pass {i j : Input} {s u : State} (h : ownPass i s u) (hj : j ≠ i) : u.pass j = s.pass j := by
  rw [State.pass_eq_input, State.pass_eq_input, h.inputs j hj]

/-- An operation that changes no input leaves the cleared record cleared. -/
theorem clearPass_pass (late : Bool) (i : Input) (s : State) : (clearPass late i s).pass i = none := by
  rw [clearPass, State.withInput_pass_same]

theorem stopMeasuring_pse (kind : PassKind) (s : State) : (stopMeasuring kind s).pse = s.pse := by
  unfold stopMeasuring
  split <;> rfl

/-- The state in which a pass has left nothing has its input's record cleared, and no other input's. -/
theorem dropPass_pse (late : Bool) (i : Input) (p : Pass) (s : State) :
    (stopMeasuring p.kind (settleTrack p.track (dropLayer p.layer (clearPass late i s)))).pse = (clearPass late i s).pse := by
  rw [stopMeasuring_pse, ((onlyStore_dropLayer _ _).trans (onlyStore_settleTrack _ _)).fields.2.1]

theorem rampEnds_pse (id : LayerId) (s : State) : (rampEnds id s).pse = s.pse := by
  have store : ∀ (pos : Nat) (b : Block) (x : State), (storeBlock id pos b x).pse = x.pse := by
    intro pos b x
    rw [(storeBlock_mem id pos b x).1]
    rfl
  unfold rampEnds
  split
  · rfl
  · split
    · exact store ..
    · exact (store _ _ _).trans (store _ _ _)

theorem finishCut_pse {i : Input} {s : State} {p : Pass} (h : s.pass i = some p) (cause : CutCause) :
    (finishCut cause i s).pse = (clearPass false i s).pse := by
  simp only [finishCut, h]
  split
  · rw [((onlyStore_lowMark _).trans (onlyEvents_emit _ _).store).fields.2.1, dropPass_pse]
  · rw [((onlyStore_mapLayer _ _ _).trans (onlyEvents_emit _ _).store).fields.2.1, rampEnds_pse]

theorem State.pass_congr {s u : State} (h : u.pse = s.pse) (i : Input) : u.pass i = s.pass i := by
  simp only [State.pass, h]

/-- A pass still open after its cut waits for its backfill with the cause (R89). -/
theorem cutPass_cut {cause : CutCause} {marks : Bool} {i : Input} {s : State} {p : Pass}
    (h : (cutPass cause marks i s).pass i = some p) : p.cut ≠ none := by
  unfold cutPass at h
  split at h
  · next hn => rw [hn] at h; cases h
  · next q hq =>
    split at h
    · next hc =>
      rw [hq] at h
      cases h
      exact Option.isSome_iff_ne_none.1 hc
    · simp only at h
      split at h
      · rw [State.withPass_pass_same] at h
        cases h
        simp
      · have hpass : ∀ x : State, (finishCut cause i x).pass i = none := by
          intro x
          cases hx : x.pass i with
          | none => simp only [finishCut, hx]
          | some p => rw [State.pass_congr (finishCut_pse hx cause), clearPass_pass]
        rw [hpass] at h
        cases h

theorem cutPasses_cut {cause : CutCause} {marks : Bool} {i : Input} : ∀ (is : List Input) (s : State),
    (i ∈ is ∨ ∀ p, s.pass i = some p → p.cut ≠ none) →
    ∀ p, (is.foldl (fun s i => cutPass cause marks i s) s).pass i = some p → p.cut ≠ none
  | [], s, h, p, hp => (h.resolve_left (by simp)) p hp
  | j :: is, s, h, p, hp => by
    refine cutPasses_cut is (cutPass cause marks j s) ?_ p hp
    by_cases hj : i = j
    · subst hj
      exact .inr fun q hq => cutPass_cut hq
    · rw [(ownPass_cutPass cause marks j s).pass hj]
      exact h.imp_left fun hm => (List.mem_cons.1 hm).resolve_left hj

/-- After every open pass has been cut, each one still open carries a cause (R154). -/
theorem cutAll_cut {cause : CutCause} {marks : Bool} {s : State} {i : Input} {p : Pass}
    (h : (cutAll cause marks s).pass i = some p) : p.cut ≠ none :=
  cutPasses_cut allInputs s (.inl (mem_allInputs i)) p h

theorem cutAll_cyc (cause : CutCause) (marks : Bool) {s : State} (h : s.cyc.state ≠ .measuring) :
    (cutAll cause marks s).cyc = s.cyc := by
  have : ∀ (is : List Input) (x : State), x.cyc = s.cyc →
      (is.foldl (fun s i => cutPass cause marks i s) x).cyc = s.cyc := by
    intro is
    induction is with
    | nil => exact fun x hx => hx
    | cons i is ih => exact fun x hx => ih _ (((ownPass_cutPass cause marks i x).cyc (by rwa [hx])).trans hx)
  exact this allInputs s rfl

/-! ## The queue cancelled, the timeline stopped -/

/-- Replies alone change nothing of the inner hub. -/
theorem foldl_reply_inner {α : Type} {f : State → α → State} (h : ∀ s x, (f s x).inner = s.inner) :
    ∀ (xs : List α) (s : State), (xs.foldl f s).inner = s.inner
  | [], _ => rfl
  | x :: xs, s => (foldl_reply_inner h xs (f s x)).trans (h s x)

/-- The timeline-stopped notice empties the action queue, and places replies (R106). -/
theorem cancelQueue_inner (s : State) : (cancelQueue s).inner = (s.withAqu { s.aqu with queue := [] }).inner :=
  foldl_reply_inner (fun _ _ => reply_inner ..) s.aqu.queue _

/-- The timeline a hold leaves (R21). -/
def Cyc.held (c : Cyc) (loops : Vector (Option Nat) 8) : Cyc :=
  match c.state with
  | .running => { c with state := .paused, pos := some 0, runOut := some loops, withheld := false }
  | .counting =>
    if c.schedStart.isSome then { c with state := .paused, pos := some 0, count := 0, schedStart := none, taps := [] }
    else c.toUnset
  | _ => c

theorem Cyc.held_running {c : Cyc} (h : c.state = .running) (loops : Vector (Option Nat) 8) :
    c.held loops = { c with state := .paused, pos := some 0, runOut := some loops, withheld := false } := by
  simp only [Cyc.held, h]

theorem Cyc.held_counting {c : Cyc} (h : c.state = .counting) (loops : Vector (Option Nat) 8) :
    c.held loops =
      if c.schedStart.isSome then { c with state := .paused, pos := some 0, count := 0, schedStart := none, taps := [] }
      else c.toUnset := by
  simp only [Cyc.held, h]

theorem Cyc.held_of_not {c : Cyc} (h1 : c.state ≠ .running) (h2 : c.state ≠ .counting)
    (loops : Vector (Option Nat) 8) : c.held loops = c := by
  unfold Cyc.held
  split
  · next h => exact absurd h h1
  · next h => exact absurd h h2
  · rfl

/-- The timeline of a count-in that a hold stops is PAUSED or abandoned; the queue is told (R21). -/
theorem stopTimeline_counting {s : State} (h : s.cyc.state = .counting) :
    stopTimeline s = cancelQueue (s.withCyc (s.cyc.held s.loopPositions)) := by
  simp only [stopTimeline, h, Cyc.held_counting h]
  by_cases hs : s.cyc.schedStart.isSome = true
  · simp only [if_pos hs]
  · simp only [if_neg hs]

theorem stopTimeline_running {s : State} (h : s.cyc.state = .running) :
    stopTimeline s = cancelQueue (s.withCyc (s.cyc.held s.loopPositions)) := by
  simp only [stopTimeline, h, Cyc.held_running h, leaveRunning]

theorem stopTimeline_of_not {s : State} (h1 : s.cyc.state ≠ .running) (h2 : s.cyc.state ≠ .counting) :
    stopTimeline s = s := by
  unfold stopTimeline
  split
  · next h => exact absurd h h1
  · next h => exact absurd h h2
  · rfl

/-- The stop of the timeline by a hold: the timeline, and the action queue where it ran or counted in (R21). -/
theorem stopTimeline_inner (s : State) :
    (stopTimeline s).inner = ({ s with
      cyc := s.cyc.held s.loopPositions,
      aqu := if s.cyc.state = .running ∨ s.cyc.state = .counting then { s.aqu with queue := [] } else s.aqu } :
      State).inner := by
  by_cases h1 : s.cyc.state = .running
  · rw [stopTimeline_running h1, cancelQueue_inner, if_pos (.inl h1)]
    rfl
  · by_cases h2 : s.cyc.state = .counting
    · rw [stopTimeline_counting h2, cancelQueue_inner, if_pos (.inr h2)]
      rfl
    · rw [stopTimeline_of_not h1 h2, Cyc.held_of_not h1 h2, if_neg (not_or.2 ⟨h1, h2⟩)]

/-- The bounce engine a hold leaves (R142). -/
def Bne.suspending (b : Bne) : Bne :=
  if b.engine = .scanning ∨ b.engine = .committing then
    { b with active := b.active.map fun x => { x with suspendPending := true } }
  else b

theorem pendSuspend_eq (s : State) : pendSuspend s = s.withBne s.bne.suspending := by
  unfold pendSuspend Bne.suspending
  split
  · next h => rw [if_pos (by simpa using h)]
  · next h => rw [if_neg (by simpa using h)]; rfl

/-! ## HOLD -/

/-- The controller and the bounce engine enter the hold (R154, R142). -/
def startDraining (cause : HoldCause) (station : Option Link) (s : State) : State :=
  let s1 := pendSuspend s
  s1.withTmc { s1.tmc with mem := .draining, holdCause := some cause, holdStation := station,
                           holdEntry := some s1.cyc.block, holds := sat32 (s1.tmc.holds + 1) }

theorem startDraining_inner (cause : HoldCause) (station : Option Link) (s : State) :
    (startDraining cause station s).inner = ({ s with
      bne := s.bne.suspending,
      tmc := { s.tmc with mem := .draining, holdCause := some cause, holdStation := station,
                          holdEntry := some s.cyc.block, holds := sat32 (s.tmc.holds + 1) } } : State).inner := by
  rw [startDraining, pendSuspend_eq]
  rfl

/-- The hub at a hold's entry with nothing due, before its event. -/
def heldState (cause : HoldCause) (station : Option Link) (s : State) : State :=
  startDraining cause station (stopTimeline (cutAll .hold false s))

theorem enterHold_eq {s : State} (hs : s.strokeDue = false) (ha : s.advanceDue = false) (cause : HoldCause)
    (station : Option Link) :
    enterHold cause station s =
      emit (.holdDraining cause station (heldState cause station s).smn.supply (heldState cause station s).smn.thermal
        (heldState cause station s).cyc.state) (heldState cause station s) := by
  have hq : advanceQueue s = s := by rw [advanceQueue, if_neg (by simp [ha])]
  rw [enterHold, strokes_of_not hs, hq]
  rfl

/-- What a hold's entry leaves beside the passes (R154, R21). -/
structure Held (cause : HoldCause) (station : Option Link) (s u : State) : Prop where
  cyc : s.cyc.state ≠ .measuring → ∃ loops, u.cyc = s.cyc.held loops
  aqu : s.cyc.state ≠ .measuring →
    u.aqu = if s.cyc.state = .running ∨ s.cyc.state = .counting then { s.aqu with queue := [] } else s.aqu
  bne : u.bne = s.bne.suspending
  mxe : u.mxe = s.mxe
  smn : u.smn = s.smn
  cut : ∀ i p, u.pass i = some p → p.cut ≠ none
  tmc : u.tmc = { s.tmc with mem := .draining, holdCause := some cause, holdStation := station,
                             holdEntry := some u.cyc.block, holds := sat32 (s.tmc.holds + 1) }

theorem heldState_held (cause : HoldCause) (station : Option Link) (s : State) :
    Held cause station s (heldState cause station s) := by
  obtain ⟨haqu, hmxe, hbne, htmc, hsmn, -⟩ := (onlyPasses_cutAll .hold false s).fields
  obtain ⟨kc, -, -, kp, ka, km, kb, kt, ks, -⟩ := State.inner_fields (stopTimeline_inner (cutAll .hold false s))
  obtain ⟨lc, -, -, lp, la, lm, lb, lt, ls, -⟩ :=
    State.inner_fields (startDraining_inner cause station (stopTimeline (cutAll .hold false s)))
  refine ⟨fun hm => ⟨(cutAll .hold false s).loopPositions, ?_⟩, fun hm => ?_, lb.trans ?_, lm.trans (km.trans hmxe),
    ls.trans (ks.trans hsmn), fun i p hp => ?_, lt.trans ?_⟩
  · rw [← cutAll_cyc .hold false hm]
    exact lc.trans kc
  · rw [← cutAll_cyc .hold false hm, ← haqu]
    exact la.trans ka
  · exact congrArg Bne.suspending (kb.trans hbne)
  · exact cutAll_cut ((State.pass_congr (lp.trans kp) i).symm.trans hp)
  · have h1 : (stopTimeline (cutAll .hold false s)).tmc = s.tmc := kt.trans htmc
    have h2 : (heldState cause station s).cyc = (stopTimeline (cutAll .hold false s)).cyc := lc
    rw [h2, ← h1]

/-- Settles O37: the cuts, the stop and the bounce through `heldState`, HOLD_STATE the newest event, OK the newest reply. -/
theorem holdEntersDraining : Obligations.HoldEntersDraining := by
  intro s lk tag h
  obtain ⟨-, hsettled, -⟩ := State.ready_parts h
  obtain ⟨hcyc, hlys, hpgp, hpse, haqu, hmxe, hbne, htmc, hsmn, -⟩ := taken_fields lk true s
  refine ⟨fun hm => congrArg Host.Outcome.next (serve_eq_served_id h ?_), fun hm hstroke => ?_⟩
  · rw [ownHold, if_neg (by rwa [htmc])]
  have hstroke' : (taken lk true s).strokeDue = false := by
    simpa only [State.strokeDue, hbne, htmc] using hstroke
  have hadvance : (taken lk true s).advanceDue = false := by
    obtain ⟨-, -, -, -, ha, -⟩ := State.settled_parts hsettled
    simpa only [State.advanceDue, hbne, htmc] using ha
  have heq := enterHold_eq hstroke' hadvance .request (some lk)
  have hexec : exec (.hold lk tag) s = .next (s.served lk 0x18 tag .ok (enterHold .request (some lk))) :=
    congrArg Host.Outcome.next (serve_eq_served h (by rw [ownHold, if_pos (by rw [htmc, hm]), answer])
      (keepsInputs_enterHold _ _ _).time)
  have hheld := heldState_held .request (some lk) (taken lk true s)
  have hemit := onlyEvents_emit (.holdDraining .request (some lk) (heldState .request (some lk) (taken lk true s)).smn.supply
    (heldState .request (some lk) (taken lk true s)).smn.thermal
    (heldState .request (some lk) (taken lk true s)).cyc.state) (heldState .request (some lk) (taken lk true s))
  rw [← heq] at hemit
  have hinner : (s.served lk 0x18 tag .ok (enterHold .request (some lk))).inner =
      (heldState .request (some lk) (taken lk true s)).inner := (pushReply_inner ..).trans hemit.1
  have hruns : ∀ j, (enterHold .request (some lk) (taken lk true s)).linkRuns j = s.linkRuns j := fun j => by
    rw [(keepsInputs_enterHold _ _ _).runs, taken_linkRuns]
  refine ⟨_, hexec, ?_⟩
  generalize hu : heldState .request (some lk) (taken lk true s) = u at hheld hinner heq
  obtain ⟨fcyc, -, -, fpse, faqu, fmxe, fbne, ftmc, fsmn, -⟩ := State.inner_fields hinner
  have hblock : u.cyc.block = s.cyc.block := by
    rw [← hu, ← (State.inner_fields hemit.1).1, ((keepsInputs_enterHold _ _ _).cyc).1, hcyc]
  rw [faqu, fcyc, ftmc, fbne, fmxe, fsmn]
  refine ⟨?_, fun hs => ?_, fun hs => ?_, fun hs => ?_, fun i p hp => ?_, ?_, ?_, ?_, fun j hj => ?_, ?_⟩
  · rw [hheld.tmc, hblock, htmc]
    rfl
  · have hm : (taken lk true s).cyc.state ≠ .measuring := by rw [hcyc, hs]; decide
    obtain ⟨loops, hc⟩ := hheld.cyc hm
    rw [hc, hheld.aqu hm, hcyc, if_pos (.inl hs), Cyc.held_running hs]
    exact ⟨rfl, rfl, rfl, rfl⟩
  · have hm : (taken lk true s).cyc.state ≠ .measuring := by rw [hcyc]; obtain hs | hs := hs <;> rw [hs] <;> decide
    obtain ⟨loops, hc⟩ := hheld.cyc hm
    rw [hc, hheld.aqu hm, hcyc, haqu]
    have h1 : s.cyc.state ≠ .running := by obtain hs | hs := hs <;> rw [hs] <;> decide
    have h2 : s.cyc.state ≠ .counting := by obtain hs | hs := hs <;> rw [hs] <;> decide
    exact ⟨Cyc.held_of_not h1 h2 loops, if_neg (not_or.2 ⟨h1, h2⟩)⟩
  · have hm : (taken lk true s).cyc.state ≠ .measuring := by rw [hcyc, hs]; decide
    obtain ⟨loops, hc⟩ := hheld.cyc hm
    rw [hc, hheld.aqu hm, hcyc, if_pos (.inr hs), Cyc.held_counting hs]
    refine ⟨rfl, ?_, fun hn => ?_, fun hn => ?_⟩
    · split <;> rfl
    · rw [if_neg (by simp [hn])]; exact ⟨rfl, rfl⟩
    · rw [if_pos (Option.isSome_iff_ne_none.2 hn)]; exact ⟨rfl, rfl, rfl⟩
  · exact hheld.cut i p ((State.pass_congr fpse i).symm.trans hp)
  · rw [hheld.bne, hbne]
    rfl
  · rw [hheld.mxe, hmxe]
  · rw [hheld.smn, hsmn]
  · have hj' : u.linkRuns j = true := by rw [← hu, ← hemit.linkRuns, hruns, hj]
    obtain ⟨m, hm⟩ := emitAt_urgent_last (info := u.info)
      (b := .holdDraining .request (some lk) u.smn.supply u.smn.thermal u.cyc.state) rfl rfl hj'
    refine ⟨⟨.holdDraining .request (some lk) u.smn.supply u.smn.thermal u.cyc.state, u.info, m, true⟩, ?_, ?_⟩
    · rw [State.served, pushReply_events, heq]
      exact hm
    · rw [hheld.smn, hsmn]
  · exact ⟨_, served_getLast ((hruns lk).trans (State.ready_linkRuns h)), rfl, rfl, rfl⟩

end Sys2Proof.Machine
end

section
/-! PROOFS. HUB_RESET (R188): the replies it owes, the reset of every block but the links, and its events. -/

namespace Sys2Proof.Machine

/-! ## Replies alone -/

/-- `u` has the links of `s` but for reply queues, and the request unit of `s`. -/
def onlyReplies (s u : State) : Prop :=
  (∀ j, { u.link j with replies := [] } = { s.link j with replies := [] }) ∧ u.rqu = s.rqu

theorem onlyReplies.refl (s : State) : onlyReplies s s := ⟨fun _ => rfl, rfl⟩

theorem onlyReplies.trans {s u v : State} (h : onlyReplies s u) (k : onlyReplies u v) : onlyReplies s v :=
  ⟨fun j => (k.1 j).trans (h.1 j), k.2.trans h.2⟩

theorem onlyReplies_pushReply (lk : Link) (r : Reply) (s : State) : onlyReplies s (pushReply lk r s) := by
  unfold pushReply
  split
  · refine ⟨fun j => ?_, rfl⟩
    rw [State.withLink_link]
    split
    · next h => rw [h]
    · rfl
  · exact .refl s

theorem onlyReplies_reply (lk : Link) (a b : Byte) (k : Bool) (c : ReplyCode) (p : Payload) (s : State) :
    onlyReplies s (reply lk a b k c p s) := onlyReplies_pushReply _ _ s

theorem onlyReplies_foldl {α : Type} {f : State → α → State} (h : ∀ s x, onlyReplies s (f s x)) :
    ∀ (xs : List α) (s : State), onlyReplies s (xs.foldl f s)
  | [], s => .refl s
  | x :: xs, s => (h s x).trans (onlyReplies_foldl h xs (f s x))

theorem onlyReplies_cancelQueue (s : State) : onlyReplies s (cancelQueue s) :=
  onlyReplies_foldl (fun x (e : Entry) => onlyReplies_reply e.station e.action.code e.tag true .cancelled .none x)
    s.aqu.queue (s.withAqu { s.aqu with queue := [] })

theorem onlyReplies_cancelWaiting (s : State) : onlyReplies s (cancelWaiting s) :=
  onlyReplies_foldl (fun x (w : Waiting) => onlyReplies_reply w.station bounceCode w.tag true .cancelled .none x)
    s.bne.waiting (s.withBne { s.bne with waiting := [] })

/-- Every waiting bounce is answered, and its list is empty (R49, R145). -/
theorem cancelWaiting_inner (s : State) : (cancelWaiting s).inner = (s.withBne { s.bne with waiting := [] }).inner :=
  foldl_reply_inner (fun _ _ => reply_inner ..) s.bne.waiting _

/-- The reply that the reset owes for the active bounce (R145). -/
def cancelActive (s : State) : State :=
  match s.bne.active with
  | some b => if b.owed then reply b.station bounceCode b.tag true .cancelled (.bounce b.peak b.clips none) s else s
  | none => s

theorem cancelOwed_eq (s : State) : cancelOwed s = cancelWaiting (cancelActive (cancelQueue s)) := rfl

theorem cancelActive_inner (s : State) : (cancelActive s).inner = s.inner := by
  unfold cancelActive
  split
  · split
    · exact reply_inner ..
    · rfl
  · rfl

theorem onlyReplies_cancelActive (s : State) : onlyReplies s (cancelActive s) := by
  unfold cancelActive
  split
  · split
    · exact onlyReplies_reply _ _ _ _ _ _ s
    · exact .refl s
  · exact .refl s

theorem onlyReplies_cancelOwed (s : State) : onlyReplies s (cancelOwed s) :=
  ((onlyReplies_cancelQueue s).trans (onlyReplies_cancelActive _)).trans (onlyReplies_cancelWaiting _)

/-- What the reset's cancellations leave of the inner hub: all but the action queue and the bounce engine. -/
theorem cancelOwed_fields (s : State) :
    (cancelOwed s).cyc = s.cyc ∧ (cancelOwed s).pse = s.pse ∧ (cancelOwed s).mxe = s.mxe ∧ (cancelOwed s).tmc = s.tmc ∧
      (cancelOwed s).smn = s.smn ∧ (cancelOwed s).mem = s.mem := by
  obtain ⟨a1, -, -, a2, -, a3, -, a4, a5, a6, -⟩ := State.inner_fields (cancelQueue_inner s)
  obtain ⟨b1, -, -, b2, -, b3, -, b4, b5, b6, -⟩ := State.inner_fields (cancelActive_inner (cancelQueue s))
  obtain ⟨c1, -, -, c2, -, c3, -, c4, c5, c6, -⟩ :=
    State.inner_fields (cancelWaiting_inner (cancelActive (cancelQueue s)))
  rw [cancelOwed_eq]
  exact ⟨c1.trans (b1.trans a1), c2.trans (b2.trans a2), c3.trans (b3.trans a3), c4.trans (b4.trans a4),
    c5.trans (b5.trans a5), c6.trans (b6.trans a6)⟩

/-! ## The blocks reset -/

/-- A link after HUB_RESET: no event waits and its counters are 0 (R182). -/
def LinkRec.hubReset (r : LinkRec) : LinkRec :=
  { r with events := [], counters := LinkCounters.zero, station := StationCounters.zero }

/-- One link's part of the reset touches no other link, and nothing else. -/
theorem resetLinks_fold : ∀ (ls : List Link) (s : State), ls.Nodup →
    (∀ j, (ls.foldl (fun s lk => mapLink lk LinkRec.hubReset s) s).link j =
      if j ∈ ls then (s.link j).hubReset else s.link j) ∧
      (ls.foldl (fun s lk => mapLink lk LinkRec.hubReset s) s).inner = s.inner ∧
      (ls.foldl (fun s lk => mapLink lk LinkRec.hubReset s) s).rqu = s.rqu
  | [], s, _ => ⟨fun j => by simp, rfl, rfl⟩
  | lk :: ls, s, hn => by
    obtain ⟨hnot, hn'⟩ := List.nodup_cons.1 hn
    obtain ⟨hl, hi, hr⟩ := resetLinks_fold ls (mapLink lk LinkRec.hubReset s) hn'
    rw [List.foldl_cons]
    refine ⟨fun j => ?_, hi, hr⟩
    rw [hl, mapLink, State.withLink_link]
    by_cases hj : j = lk
    · subst hj
      simp [hnot]
    · simp [hj]

theorem resetLinks_spec (s : State) :
    (∀ j, (resetLinks s).link j = (s.link j).hubReset) ∧ (resetLinks s).inner = s.inner ∧
      (resetLinks s).rqu = s.rqu := by
  obtain ⟨hl, hi, hr⟩ := resetLinks_fold allLinks s (by decide)
  refine ⟨fun j => ?_, hi, hr⟩
  have hj : j ∈ allLinks := by revert j; decide
  have := hl j
  rw [if_pos hj] at this
  exact this

theorem resetInputs_input (s : State) (i : Input) : (resetInputs s).input i = (s.input i).hubReset := by
  fin_cases i <;> simp [resetInputs, State.input]

/-- The blocks at their HUB_RESET values (R188). -/
structure BlocksReset (s u : State) : Prop where
  cyc : u.cyc = s.cyc.hubReset
  lys : u.lys = Lys.reset
  pgp : u.pgp = Pgp.reset
  inputs : ∀ i, u.input i = (s.input i).hubReset
  openings : u.pse.openings = 0
  aqu : u.aqu = Aqu.reset
  mxe : u.mxe = s.mxe.hubReset
  bne : u.bne = Bne.reset
  tmc : u.tmc = s.tmc.hubReset s.cyc.block s.smn.thermal
  smn : u.smn = s.smn.hubReset
  mem : u.mem = s.mem
  pointer : u.rqu.pointer = s.rqu.pointer

/-- Two states of one inner hub and one pointer are reset alike. -/
theorem BlocksReset.of_inner {s u v : State} (h : BlocksReset s u) (hi : v.inner = u.inner)
    (hp : v.rqu.pointer = u.rqu.pointer) : BlocksReset s v := by
  obtain ⟨h1, h2, h3, h4, h5, h6, h7, h8, h9, h10, -⟩ := State.inner_fields hi
  exact ⟨h1.trans h.cyc, h2.trans h.lys, h3.trans h.pgp, fun i => by rw [← h.inputs i, State.input, h4]; rfl,
    by rw [h4, h.openings], h5.trans h.aqu, h6.trans h.mxe, h7.trans h.bne, h8.trans h.tmc, h9.trans h.smn,
    h10.trans h.mem, hp.trans h.pointer⟩

/-- The blocks at their HUB_RESET values, before the links' part. -/
def resetCore (s : State) : State :=
  { s with
    cyc := s.cyc.hubReset, lys := Lys.reset, pgp := Pgp.reset, pse := (resetInputs s).pse, aqu := Aqu.reset,
    mxe := s.mxe.hubReset, bne := Bne.reset, tmc := s.tmc.hubReset s.cyc.block s.smn.thermal, smn := s.smn.hubReset,
    rqu := { s.rqu with stations := Vector.replicate 4 Settings.reset } }

theorem resetBlocks_eq (s : State) : resetBlocks s = resetLinks (resetCore s) := rfl

theorem resetCore_spec (s : State) : BlocksReset s (resetCore s) where
  cyc := rfl
  lys := rfl
  pgp := rfl
  inputs := resetInputs_input s
  openings := rfl
  aqu := rfl
  mxe := rfl
  bne := rfl
  tmc := rfl
  smn := rfl
  mem := rfl
  pointer := rfl

theorem resetBlocks_spec (s : State) :
    BlocksReset s (resetBlocks s) ∧
      ∀ j, (resetBlocks s).link j = (s.link j).hubReset ∧ (resetBlocks s).station j = Settings.reset := by
  obtain ⟨hl, hi, hr⟩ := resetLinks_spec (resetCore s)
  rw [resetBlocks_eq]
  refine ⟨(resetCore_spec s).of_inner hi (by rw [hr]), fun j => ⟨hl j, ?_⟩⟩
  rw [State.station, hr]
  exact Vector.getElem_replicate _

/-! ## The reset's events -/

/-- An urgent event at a station with its settings reset: it joins the queue of a link in RUN, and the settings stay. -/
theorem emit_reset {s : State} {b : EventBody} {j : Link} (hx : b.excludes j = false) (hu : b.urgent = true)
    (hs : s.station j = Settings.reset) (hl : (s.link j).events.length < 16) :
    (emit b s).station j = Settings.reset ∧
      ((emit b s).link j).events.length ≤ (s.link j).events.length + 1 ∧
      (s.linkRuns j = true → ((emit b s).link j).events = (s.link j).events ++ [⟨b, s.info, false, true⟩]) := by
  by_cases hr : s.linkRuns j = true
  · have hq : (s.station j).quiet = false := by rw [hs]; rfl
    obtain ⟨he, hst⟩ := emitAt_urgent_room (info := s.info) hx hu hr hq hl
    have hm : (s.station j).missed = false := by rw [hs]; rfl
    refine ⟨?_, ?_, fun _ => ?_⟩
    · rw [emit, hst, hs]; rfl
    · rw [emit, he, List.length_append]; rfl
    · rw [emit, he, hm]
  · obtain ⟨s', hs', kl, ks⟩ := emitAt_at s.info b s j hx
    have : deliver j b s.info s' = s' := by
      rw [deliver, if_pos (by rw [hs'.linkRuns]; simpa using hr)]
    rw [this] at kl ks
    exact ⟨by rw [emit, ks, hs'.2.1, hs], by rw [emit, kl, hs'.1]; omega, fun h => absurd h hr⟩

/-- What a reset's events leave: the blocks, the links but for their events, the settings. -/
structure ResetDone (s u : State) : Prop where
  blocks : BlocksReset s u
  links : ∀ j, (u.link j).besideEvents = ((s.link j).hubReset).besideEvents
  stations : ∀ j, u.station j = Settings.reset

theorem ResetDone.emit {s u : State} (h : ResetDone s u) {b : EventBody} (hx : ∀ j, b.excludes j = false)
    (hu : b.urgent = true) (hl : ∀ j, (u.link j).events.length < 16) : ResetDone s (emit b u) where
  blocks := h.blocks.of_inner (onlyEvents_emit b u).1 (onlyEvents_emit b u).2.1
  links j := ((onlyEvents_emit b u).2.2.2.2 j).1.trans (h.links j)
  stations j := (emit_reset (hx j) hu (h.stations j) (hl j)).1

theorem resetBlocks_done (s : State) :
    ResetDone s (resetBlocks s) ∧ ∀ j, ((resetBlocks s).link j).events = [] := by
  obtain ⟨hb, hl⟩ := resetBlocks_spec s
  exact ⟨⟨hb, fun j => by rw [(hl j).1], fun j => (hl j).2⟩, fun j => by rw [(hl j).1]; rfl⟩

theorem ResetDone.nextFree {s u : State} (h : ResetDone s u) : ResetDone s u.nextFree where
  blocks := ⟨h.blocks.cyc, h.blocks.lys, h.blocks.pgp, h.blocks.inputs, h.blocks.openings, h.blocks.aqu, h.blocks.mxe,
    h.blocks.bne, h.blocks.tmc, h.blocks.smn, h.blocks.mem, h.blocks.pointer⟩
  links := h.links
  stations := h.stations

/-- What HUB_RESET leaves before its reply: its blocks reset, and outside DRAINING its one event (R188, R160). -/
theorem ownHubReset_done (lk : Link) (s : State) :
    ResetDone (cancelOwed s) (ownHubReset lk s).1 ∧
      (s.tmc.mem ≠ .draining → ∀ j, s.linkRuns j = true →
        ((ownHubReset lk s).1.link j).events =
          [⟨.hubRestarted lk s.cyc.block (ownHubReset lk s).1.tmc.mem, (ownHubReset lk s).1.info, false, true⟩]) := by
  obtain ⟨hdone, hnone⟩ := resetBlocks_done (cancelOwed s)
  have hroom : ∀ j, ((resetBlocks (cancelOwed s)).link j).events.length < 16 := fun j => by rw [hnone]; decide
  have hblock : (resetBlocks (cancelOwed s)).cyc.block = s.cyc.block := by
    rw [hdone.blocks.cyc, (cancelOwed_fields s).1]
    rfl
  by_cases hm : s.tmc.mem = .draining
  · refine ⟨?_, fun h => absurd hm h⟩
    simp only [ownHubReset, if_pos hm, answer]
    have one : ∀ (b c : EventBody), (∀ j, b.excludes j = false) → (∀ j, c.excludes j = false) → b.urgent = true →
        c.urgent = true →
        ResetDone (cancelOwed s) (emit c (emit b (resetBlocks (cancelOwed s)).nextFree)) := by
      intro b c hb hc ub uc
      refine (hdone.nextFree.emit hb ub hroom).emit hc uc fun j => ?_
      have := (emit_reset (hb j) ub (hdone.nextFree.stations j) (hroom j)).2.1
      have h0 : ((resetBlocks (cancelOwed s)).nextFree.link j).events = [] := hnone j
      rw [h0] at this
      exact lt_of_le_of_lt this (by decide)
    split
    · exact one _ _ (fun _ => rfl) (fun _ => rfl) rfl rfl
    · exact one _ _ (fun _ => rfl) (fun _ => rfl) rfl rfl
  · have heq : (ownHubReset lk s).1 = emitRestarted lk (resetBlocks (cancelOwed s)) := by
      simp only [ownHubReset, if_neg hm, answer]
    rw [heq]
    refine ⟨hdone.emit (fun _ => rfl) rfl hroom, fun _ j hj => ?_⟩
    have hj' : (resetBlocks (cancelOwed s)).linkRuns j = true := by
      have hl := congrArg LinkRec.state (hdone.links j)
      have hr := congrArg LinkRec.state ((onlyReplies_cancelOwed s).1 j)
      simp only [State.linkRuns] at hj ⊢
      simp only [LinkRec.besideEvents, LinkRec.hubReset] at hl hr
      rw [hl, hr]
      exact hj
    have hfields := State.inner_fields (onlyEvents_emit (.hubRestarted lk (resetBlocks (cancelOwed s)).cyc.block
      (resetBlocks (cancelOwed s)).tmc.mem) (resetBlocks (cancelOwed s))).1
    have := (emit_reset (b := .hubRestarted lk (resetBlocks (cancelOwed s)).cyc.block
      (resetBlocks (cancelOwed s)).tmc.mem) rfl rfl (hdone.stations j) (hroom j)).2.2 hj'
    rw [emitRestarted, this, hnone, hfields.2.2.2.2.2.2.2.1, State.info, State.info, hfields.1, hblock]
    rfl

/-! ## HUB_RESET -/

theorem Tmc.hubReset_awake {m : Tmc} (h : m.mem = .active ∨ m.mem = .draining) (n : Nat) (x : Thermal) :
    m.hubReset n x = { Tmc.reset with refresh := refreshOf x, trigger := m.trigger } := by
  obtain h | h := h <;> simp only [Tmc.hubReset, h]

theorem Tmc.hubReset_asleep {m : Tmc} (h : m.mem = .retaining ∨ m.mem = .waking) (n : Nat) (x : Thermal) :
    m.hubReset n x = { Tmc.reset with
      refresh := refreshOf x, trigger := m.trigger, mem := .waking, holdCause := m.holdCause,
      holdStation := m.holdStation, holdEntry := m.holdEntry, wakeCause := some .reset,
      wakeEnd := if m.mem = .retaining then some (wrap32 (n + 2)) else m.wakeEnd } := by
  obtain h | h := h <;> simp [Tmc.hubReset, h]

/-- The counts, the account and the refresh charge after HUB_RESET (R160). -/
theorem Tmc.hubReset_counts (m : Tmc) (n : Nat) (x : Thermal) :
    (m.hubReset n x).credit = 0 ∧ (m.hubReset n x).holds = 0 ∧ (m.hubReset n x).drained = 0 ∧
      (m.hubReset n x).stalls = 0 ∧ (m.hubReset n x).account = ⟨0, 0, 0, 0⟩ ∧ (m.hubReset n x).refresh = refreshOf x := by
  cases hm : m.mem <;> simp [Tmc.hubReset, hm, Tmc.reset]

/-- The taking of a request leaves each link but its events and, of its own, the head of the request queue. -/
theorem taken_link (lk j : Link) (e : Bool) (s : State) :
    ((taken lk e s).link j).besideEvents =
      (if j = lk then { s.link j with requests := (s.link j).requests.tail } else s.link j).besideEvents := by
  have hp : (popRequest lk s).link j =
      if j = lk then { s.link j with requests := (s.link j).requests.tail } else s.link j := by
    rw [popRequest_link]
    split
    · next h => rw [h]
    · rfl
  unfold taken
  split
  · rw [← hp]
    exact ((onlyEvents_endQuiet lk _).2.2.2.2 j).1
  · rw [hp]

theorem taken_pointer (lk : Link) (e : Bool) (s : State) : (taken lk e s).rqu.pointer = lk := by
  unfold taken
  split
  · exact (onlyEvents_endQuiet lk _).2.1
  · rfl

theorem ownHubReset_answer (lk : Link) (s : State) : (ownHubReset lk s).2 = (.ok, .none) := by
  simp only [ownHubReset]
  split <;> rfl

/-- Settles O40: the blocks through `BlocksReset`, the links by what the taking, the replies and the reset leave. -/
theorem hubResetKeepsTheLinks : Obligations.HubResetKeepsTheLinks := by
  intro s lk tag h
  obtain ⟨hcyc, -, -, hpse, -, hmxe, -, htmc, hsmn, hmem, -⟩ := taken_fields lk true s
  obtain ⟨kcyc, kpse, kmxe, ktmc, ksmn, kmem⟩ := cancelOwed_fields (taken lk true s)
  obtain ⟨hdone, hevents⟩ := ownHubReset_done lk (taken lk true s)
  have hans : ownHubReset lk (taken lk true s) = ((ownHubReset lk (taken lk true s)).1, .ok, .none) :=
    Prod.ext rfl (ownHubReset_answer lk _)
  have hexec : exec (.hubReset lk tag) s = .next (s.served lk 0x21 tag .ok fun x => (ownHubReset lk x).1) :=
    congrArg Host.Outcome.next (serve_eq_served h hans (keepsTime_ownHubReset lk _))
  refine ⟨_, hexec, ?_⟩
  generalize hu : (ownHubReset lk (taken lk true s)).1 = u at hdone hevents
  have hserved : s.served lk 0x21 tag .ok (fun x => (ownHubReset lk x).1) =
      pushReply lk (s.firstReplyOf 0x21 tag .ok .none) u := by
    rw [State.served, hu]
  have hreplies := onlyReplies_pushReply lk (s.firstReplyOf 0x21 tag .ok .none) u
  have hblocks : BlocksReset (cancelOwed (taken lk true s)) (pushReply lk (s.firstReplyOf 0x21 tag .ok .none) u) :=
    hdone.blocks.of_inner (pushReply_inner ..) (by rw [hreplies.2])
  have hT := hblocks.tmc
  rw [ktmc, ksmn, kcyc, htmc, hsmn, hcyc] at hT
  obtain ⟨t1, t2, t3, t4, t5, t6⟩ := s.tmc.hubReset_counts s.cyc.block s.smn.thermal
  -- every link: as it was, but for events, counters, and the reply and request queues
  have hlink : ∀ j, { (pushReply lk (s.firstReplyOf 0x21 tag .ok .none) u).link j with replies := [], events := [] } =
      { (if j = lk then { s.link j with requests := (s.link j).requests.tail } else s.link j).hubReset with
        replies := [] } := by
    intro j
    have h1 := hreplies.1 j
    have h2 := hdone.links j
    have h3 := (onlyReplies_cancelOwed (taken lk true s)).1 j
    have h4 := taken_link lk j true s
    simp only [LinkRec.besideEvents, LinkRec.hubReset, LinkRec.mk.injEq] at h1 h2 h3 h4 ⊢
    simp_all
  have hruns : u.linkRuns lk = true := by
    have := congrArg LinkRec.state (hlink lk)
    have h1 := congrArg LinkRec.state (hreplies.1 lk)
    simp only [if_true, LinkRec.hubReset] at this h1
    rw [State.linkRuns, ← h1, this]
    exact State.ready_linkRuns h
  rw [hserved]
  refine ⟨?_, hblocks.lys, hblocks.pgp, fun i => ?_, hblocks.openings, hblocks.aqu, hblocks.bne, ?_, ?_, ?_, ?_, ?_, ?_,
    ?_, ?_, fun hm => ?_, fun hm => ?_, ?_, ?_, fun j => ?_, fun j hj hm => ?_, ?_⟩
  · rw [hblocks.cyc, kcyc, hcyc]; rfl
  · rw [hblocks.inputs, State.input, kpse, hpse]; rfl
  · rw [hblocks.mxe, kmxe, hmxe]; rfl
  · rw [hblocks.smn, ksmn, hsmn]; rfl
  · rw [hT, t1]
  · rw [hT, t2]
  · rw [hT, t3]
  · rw [hT, t4]
  · rw [hT, t5]
  · rw [hT, t6]; rfl
  · rw [hT, Tmc.hubReset_awake hm]; exact ⟨rfl, rfl, rfl, rfl, rfl, rfl⟩
  · rw [hT, Tmc.hubReset_asleep hm]; exact ⟨rfl, rfl, rfl, rfl, rfl, rfl⟩
  · rw [hblocks.mem, kmem, hmem]
  · rw [hblocks.pointer, (onlyReplies_cancelOwed _).2, taken_pointer]
  · have hst : (pushReply lk (s.firstReplyOf 0x21 tag .ok .none) u).station j = Settings.reset := by
      rw [State.station, hreplies.2]
      exact hdone.stations j
    have hj := hlink j
    simp only [LinkRec.hubReset, LinkRec.mk.injEq] at hj
    obtain ⟨j1, -, -, -, j2, -, -, j3, j4, j5, -, j6, j7, -⟩ := hj
    refine ⟨hst, ?_, ?_, ?_, ?_, ?_, j6, j7⟩
    · rw [j1]; split <;> rfl
    · rw [j2]; split <;> rfl
    · rw [j4]; split <;> rfl
    · rw [j5]; split <;> rfl
    · rw [j3]; split <;> rfl
  · rw [pushReply_events, hevents (by rwa [htmc]) j (by rwa [taken_linkRuns]), hcyc]
    obtain ⟨p1, -, -, -, -, -, -, p2, -⟩ := pushReply_fields lk (s.firstReplyOf 0x21 tag .ok .none) u
    rw [p2, State.info, State.info, p1]
  · have := served_getLast (s := s) (lk := lk) (code := 0x21) (tag := tag) (rc := .ok) (p := .none)
      (f := fun x => (ownHubReset lk x).1) (by rw [hu]; exact hruns)
    rw [hserved] at this
    exact ⟨_, this, rfl, rfl, rfl, rfl⟩

end Sys2Proof.Machine
end

section
/-! PROOFS. Which events the operations on layers, passes, the bounce, the mix and the account produce, and how many. -/

namespace Sys2Proof.Machine

/-! ## The events of the hub's work -/

/-- An event of a pass, a layer, the pool, the bounce or the mix: neither a mark nor a dropout, nor urgent (R193). -/
def EventBody.ofWork (b : EventBody) : Prop :=
  b.kind ∈ [.passStarted, .passEnded, .layerReclaimed, .poolLow, .bounceEnded, .busClip, .voiceShed]

theorem EventBody.ofWork.ordinary {b : EventBody} (h : b.ofWork) : b.urgent = false ∧ ∀ j, b.excludes j = false := by
  cases b <;> simp_all [EventBody.ofWork, EventBody.kind, EventBody.urgent, EventBody.excludes]

/-- An event of the hub's work is appended at most once to each queue (R189). -/
theorem adds_work {P : EventBody → Prop} (hP : ∀ b, b.ofWork → P b) {b : EventBody} (hb : b.ofWork) (s : State) :
    adds 1 P s (emit b s) :=
  adds_emit hb.ordinary.1 hb.ordinary.2 (hP b hb) s

theorem passEndedBody_ofWork (i : Input) (p : Pass) (l : Option Layer) (len : Option Nat) (o : PassOutcome)
    (c : Option CutCause) (n : Nat) : (passEndedBody i p l len o c n).ofWork := by
  simp [EventBody.ofWork, passEndedBody, EventBody.kind]

/-! ## Layers and pages -/

section
variable {P : EventBody → Prop}

theorem adds_givePages (ps : List Page) (s : State) : adds 0 P s (givePages ps s) := .of_eq rfl rfl

theorem adds_dropLayer (id : LayerId) (s : State) : adds 0 P s (dropLayer id s) := by
  unfold dropLayer
  split
  · exact .refl P s
  · exact .of_eq rfl rfl

theorem adds_emptyTest (t : TrackId) (s : State) : adds 0 P s (emptyTest t s) :=
  adds_ite (adds_withTrack ..) (.refl P s)

theorem adds_freeLayer (id : LayerId) (s : State) : adds 0 P s (freeLayer id s) := by
  unfold freeLayer
  split
  · exact .refl P s
  · exact (adds_dropLayer id s).after (adds_emptyTest ..)

theorem adds_moveHead (id : LayerId) (slot : Nat) (s : State) : adds 0 P s (moveHead id slot s).1 := by
  unfold moveHead
  split
  · split
    · exact .refl P s
    · exact .of_eq rfl rfl
  · exact .refl P s

theorem adds_mapLayer (id : LayerId) (f : Layer → Layer) (s : State) : adds 0 P s (mapLayer id f s) := by
  unfold mapLayer
  split
  · exact .refl P s
  · exact adds_withLayer ..

theorem adds_mapPass (i : Input) (f : Pass → Pass) (s : State) : adds 0 P s (mapPass i f s) := by
  unfold mapPass
  split
  · exact .refl P s
  · exact adds_withPass ..

theorem adds_storeBlock (id : LayerId) (pos : Nat) (b : Block) (s : State) : adds 0 P s (storeBlock id pos b s) := by
  rw [(storeBlock_mem id pos b s).1]
  exact adds_withMem ..

theorem adds_rampEnds (id : LayerId) (s : State) : adds 0 P s (rampEnds id s) := by
  unfold rampEnds
  split
  · exact .refl P s
  · exact adds_ite (adds_storeBlock ..) ((adds_storeBlock ..).after (adds_storeBlock ..))

theorem adds_settleTrack (t : TrackId) (s : State) : adds 0 P s (settleTrack t s) :=
  adds_ite (adds_withTrack ..) (.refl P s)

theorem adds_stopMeasuring (k : PassKind) (s : State) : adds 0 P s (stopMeasuring k s) :=
  adds_ite (adds_withCyc ..) (.refl P s)

/-- The end of a pass that leaves nothing sends nothing by itself. -/
theorem adds_dropPass (late : Bool) (i : Input) (p : Pass) (s : State) :
    adds 0 P s (stopMeasuring p.kind (settleTrack p.track (dropLayer p.layer (clearPass late i s)))) :=
  ((adds_withInput ..).after (adds_dropLayer ..)).after ((adds_settleTrack ..).after (adds_stopMeasuring ..))

theorem adds_fixLength (p : Pass) (k len : Nat) (s : State) : adds 0 P s (fixLength p k len s) :=
  (adds_withTrack ..).after (adds_mapLayer ..)

theorem adds_lowMark (hP : ∀ b, b.ofWork → P b) (s : State) : adds 1 P s (lowMark s) :=
  adds_ite (adds_withPgp ..).none ((adds_withPgp ..).after (adds_work hP (by simp [EventBody.ofWork, EventBody.kind]) _))

theorem adds_reclaimOne (hP : ∀ b, b.ofWork → P b) {need : Need} {s u : State} (h : reclaimOne need s = some u) :
    adds 1 P s u := by
  unfold reclaimOne at h
  split at h
  · cases h
  · split at h
    · cases h
    · simp only [Option.some.injEq] at h
      subst h
      exact ((adds_freeLayer _ s).after (adds_withPgp ..)).after
        (adds_work hP (by simp [EventBody.ofWork, EventBody.kind]) _)

theorem adds_reclaimRun (hP : ∀ b, b.ofWork → P b) (need : Need) (met : State → Bool) :
    ∀ (n : Nat) (s : State), adds ⊤ P s (reclaimRun need met n s)
  | 0, s => (adds.refl P s).none
  | n + 1, s => by
    unfold reclaimRun
    split
    · exact (adds.refl P s).none
    · split
      · exact (adds.refl P s).none
      · next u h =>
        exact ((adds_reclaimOne hP h).trans (adds_reclaimRun hP need met n u)).top

theorem adds_claimPage (hP : ∀ b, b.ofWork → P b) (id : LayerId) (slot : Nat) (s : State) :
    adds ⊤ P s (claimPage id slot s).1 := by
  unfold claimPage
  simp only
  split
  · exact (((adds_reclaimRun hP _ _ 48 s).andThen (adds_moveHead ..)).trans (adds_lowMark hP _)).top
  · exact (adds_withPgp ..).none

theorem adds_claimSlot (hP : ∀ b, b.ofWork → P b) (id : LayerId) (slot : Nat) (s : State) :
    adds ⊤ P s (claimSlot id slot s).1 := by
  unfold claimSlot
  split
  · exact (adds.refl P s).none
  · exact adds_claimPage hP id slot s

theorem adds_trimTo (hP : ∀ b, b.ofWork → P b) (id : LayerId) (n : Nat) (s : State) : adds 1 P s (trimTo id n s) := by
  unfold trimTo
  split
  · split
    · unfold trimLayer
      split
      · exact (adds.refl P s).none
      · exact ((adds_withLayer ..).after (adds_givePages ..)).after (adds_lowMark hP _)
    · exact (adds.refl P s).none
  · exact (adds.refl P s).none

/-! ## Passes -/

theorem adds_finishCut (hP : ∀ b, b.ofWork → P b) (cause : CutCause) (i : Input) (s : State) :
    adds 2 P s (finishCut cause i s) := by
  unfold finishCut
  split
  · exact (adds.refl P s).none
  · next p _ =>
    simp only
    split
    · exact (((adds_dropPass false i p s).after (adds_lowMark hP _)).trans
        (adds_work hP (passEndedBody_ofWork ..) _)).le (by norm_num)
    · exact ((((adds_withInput ..).after (adds_rampEnds ..)).after (adds_mapLayer ..)).after
        (adds_work hP (passEndedBody_ofWork ..) _)).le (by norm_num)

/-- A cut may place a measured cycle, with its marks (R90, R12). -/
theorem adds_cutPass (hP : ∀ b, b.ofWork → P b) (hb : ∀ n, P (.beatMark n)) (hc : ∀ l b, P (.cycleMark l b))
    (cause : CutCause) (marks : Bool) (i : Input) (s : State) : adds ⊤ P s (cutPass cause marks i s) := by
  have fix : ∀ p, adds ⊤ P s (fixAtCut marks p s) := by
    intro p
    unfold fixAtCut
    split
    · exact (adds.refl P s).none
    · split
      · have sent : adds 2 P s (if marks then emitMarks (s.withCyc s.cyc.placeMeasured) else s.withCyc s.cyc.placeMeasured) :=
          adds_ite ((adds_withCyc ..).after (adds_emitMarks hb hc _)) (adds_withCyc ..).none
        exact ((sent.andThen (adds_fixLength ..)).trans (adds_trimTo hP ..)).top
      · exact (adds.refl P s).none
    · split
      · exact adds_ite (adds_fixLength ..).none (adds.refl P s).none
      · exact (adds.refl P s).none
  unfold cutPass
  split
  · exact (adds.refl P s).none
  · next p _ =>
    split
    · exact (adds.refl P s).none
    · exact adds_ite ((fix p).andThen (adds_withPass ..))
        (((fix p).trans (adds_finishCut hP cause i _)).top)

theorem adds_abortPass (hP : ∀ b, b.ofWork → P b) (i : Input) (s : State) : adds 2 P s (abortPass true true i s) := by
  cases hp : s.pass i with
  | none => simpa only [abortPass, hp] using (adds.refl P s).none
  | some p =>
    simp only [abortPass, hp, if_true]
    exact (((adds_dropPass false i p s).after (adds_lowMark hP _)).trans
      (adds_work hP (passEndedBody_ofWork ..) _)).le (by norm_num)

/-- An abort within a larger operation, which tests the low mark itself (R65). -/
theorem adds_abortPass_within (hP : ∀ b, b.ofWork → P b) (i : Input) (s : State) :
    adds 1 P s (abortPass false true i s) := by
  cases hp : s.pass i with
  | none => simpa only [abortPass, hp] using (adds.refl P s).none
  | some p =>
    simp only [abortPass, hp, if_true, Bool.false_eq_true, if_false]
    exact (adds_dropPass false i p s).after (adds_work hP (passEndedBody_ofWork ..) _)

/-! ## The writes of a period -/

theorem adds_backfillCopy (i : Input) (s : State) : adds 0 P s (backfillCopy i s) := by
  unfold backfillCopy
  split
  · exact .refl P s
  · exact (adds_foldl_zero (fun x _ => adds_storeBlock _ _ _ x) _ s).after (adds_mapPass ..)

theorem adds_liveWrite (hP : ∀ b, b.ofWork → P b) (hb : ∀ n, P (.beatMark n)) (hc : ∀ l b, P (.cycleMark l b))
    (i : Input) (b : Block) (s : State) : adds ⊤ P s (liveWrite i b s) := by
  unfold liveWrite
  split
  · exact (adds.refl P s).none
  · next p _ =>
    split
    · have claim := adds_claimSlot hP p.layer (p.writePos / 256) s
      split
      · next s1 h =>
        rw [h] at claim
        exact (claim.trans (adds_cutPass hP hb hc .starved true i s1)).top
      · next s1 h =>
        rw [h] at claim
        exact claim.andThen (((adds_storeBlock ..).after (adds_mapLayer ..)).after (adds_mapPass ..))
    · exact (adds.refl P s).none

theorem adds_endCutBackfill (hP : ∀ b, b.ofWork → P b) (i : Input) (s : State) : adds 2 P s (endCutBackfill i s) := by
  unfold endCutBackfill
  split
  · split
    · exact adds_ite (adds_finishCut hP _ i s) (adds.refl P s).none
    · exact (adds.refl P s).none
  · exact (adds.refl P s).none

theorem adds_writeInput (hP : ∀ b, b.ofWork → P b) (hb : ∀ n, P (.beatMark n)) (hc : ∀ l b, P (.cycleMark l b))
    (f : Input → Block) (s : State) (i : Input) : adds ⊤ P s (writeInput f s i) :=
  (((adds_backfillCopy i s).after (adds_liveWrite hP hb hc i (f i) _)).trans (adds_endCutBackfill hP i _)).top

/-! ## The mix and the account -/

theorem adds_noteClip (hP : ∀ b, b.ofWork → P b) (bus : Bus) (sums : Block) (s : State) :
    adds 1 P s (noteClip bus sums s) := by
  unfold noteClip
  extract_lets frames count last send last' _ s1
  have h1 : adds 0 P s s1 := adds_withMxe ..
  exact adds_ite (adds.refl P s).none
    (adds_ite (h1.after (adds_work hP (by simp [EventBody.ofWork, EventBody.kind]) _)) h1.none)

theorem adds_noteShed (hP : ∀ b, b.ofWork → P b) (n c a : Nat) (s : State) : adds 1 P s (noteShed n c a s) := by
  unfold noteShed
  extract_lets short _ s1
  have h1 : adds 0 P s s1 := adds_withMxe ..
  exact adds_ite h1.none (h1.after (adds_work hP (by simp [EventBody.ofWork, EventBody.kind]) _))

theorem adds_placeReturn (a b : Block) (s : State) (lk : Link) : adds 0 P s (placeReturn a b s lk) := by
  unfold placeReturn
  extract_lets r c place
  have h (bus : Bus) (x : Block) : adds 0 P s (place bus x) := by
    refine .of_same (fun j => ?_) fun j => ⟨rfl, rfl⟩
    simp only [place, State.withLink_link]
    split
    · next e => subst e; exact ⟨rfl, rfl⟩
    · exact ⟨rfl, rfl⟩
  refine adds_ite ?_ (.refl P s)
  split
  · exact .refl P s
  · exact h _ _
  · exact h _ _

theorem adds_mixBlock (hP : ∀ b, b.ofWork → P b) (resolved : List (Input × Block)) (s : State) :
    adds ⊤ P s (mixBlock resolved s) := by
  have h (x : State) (n c a : Nat) (p q : Block) : adds ⊤ P x (noteClip .b p (noteClip .a q (noteShed n c a x))) :=
    (((adds_noteShed hP n c a x).trans (adds_noteClip hP .a q _)).trans (adds_noteClip hP .b p _)).top
  exact ((adds_withMxe _ s).after (h _ _ _ _ _ _)).andThen (adds_foldl_zero (adds_placeReturn _ _) _ _)

theorem adds_closeAccount (s : State) : adds 0 P s (closeAccount s) := by
  unfold closeAccount
  exact adds_ite (.refl P s) (adds_withTmc ..)

end

end Sys2Proof.Machine
end

section
/-! PROOFS. The block boundary (R1, R15, R70, R72, R161): what settling and finishing a block leave of the timeline and the
inputs, and the state in which the new block begins. -/

namespace Sys2Proof.Machine

/-! ## Settling where nothing is due -/

theorem advanceQueue_of_not {s : State} (h : s.advanceDue = false) : advanceQueue s = s := by
  rw [advanceQueue, if_neg (by simp [h])]

theorem drain_of_not {s : State} (h : s.drainDue = false) : drain s = s := by
  rw [drain, if_neg (by simp [h])]

/-- A block in which nothing is due and no stroke is paid for ends as it stands (log 3). -/
theorem settleAll_of_settled {s : State} (h : s.settled = true) (ht : s.triggerOverdue = false)
    (hs : s.strokeDue = false) : settleAll s = s := by
  obtain ⟨-, -, -, -, ha, -, hd⟩ := State.settled_parts h
  simp only [settleAll, settleStart_of_settled h, strokes_of_not hs, advanceQueue_of_not ha, drain_of_not hd, ht,
    Bool.false_eq_true, if_false]

theorem drain_frame (s : State) :
    (drain s).cyc = s.cyc ∧ (drain s).tmc.trigger = s.tmc.trigger := by
  unfold drain
  split
  · have hc (b : EventBody) (x : State) : (emit b x).cyc = x.cyc := (State.inner_fields (onlyEvents_emit b x).1).1
    have ht (b : EventBody) (x : State) : (emit b x).tmc = x.tmc := by
      obtain ⟨-, -, -, -, -, -, -, ht, -⟩ := State.inner_fields (onlyEvents_emit b x).1
      exact ht
    simp only [hc, ht, State.withTmc_cyc, State.withTmc_tmc, and_self]
  · exact ⟨rfl, rfl⟩

/-- Where no other command is due, settling leaves the timeline as it is: strokes and the waiting list are the bounce's. -/
theorem settleAll_cyc {s : State} (h : s.settled = true) (ht : s.triggerOverdue = false) : (settleAll s).cyc = s.cyc := by
  have hb : onlyBounce s (advanceQueue (strokes 4 s)) := (onlyBounce_strokes 4 s).trans (onlyBounce_advanceQueue _)
  obtain ⟨dc, dt⟩ := drain_frame (advanceQueue (strokes 4 s))
  have hc : (drain (advanceQueue (strokes 4 s))).cyc = s.cyc := dc.trans hb.cyc
  have htrigger : (drain (advanceQueue (strokes 4 s))).tmc.trigger = s.tmc.trigger := by rw [dt, hb.tmc]
  have hover : (drain (advanceQueue (strokes 4 s))).triggerOverdue = false := by
    rw [State.triggerOverdue, htrigger, hc]
    exact ht
  simp only [settleAll, settleStart_of_settled h, hover, Bool.false_eq_true, if_false, hc]

/-! ## Resolution (R70) -/

/-- A block is filed for block `n` (R69). -/
def InputRec.filed (n : Nat) (r : InputRec) : Bool := r.slots.any fun c => c.1 = n % 256

/-- An input's record after its resolution in block `n` (R70). -/
def InputRec.resolve (runs : Bool) (n : Nat) (r : InputRec) : InputRec :=
  if r.filed n then
    { r with slots := r.slots.filter fun c => c.1 ≠ n % 256, present := true }
  else if runs then { r with dropouts := sat32 (r.dropouts + 1), present := false }
  else { r with present := false }

/-- The resolution's event: INPUT_DROPOUT where no block was filed, the link is in RUN and the input was PRESENT (R70). -/
def State.dropsOut (s : State) (i : Input) : Bool :=
  !(s.input i).filed s.cyc.block && s.linkRuns i && (s.input i).present

theorem resolveInput_eq (s : State) (i : Input) :
    resolveInput s i =
      if s.dropsOut i then
        emit (.inputDropout i (sat32 ((s.input i).dropouts + 1)))
          (s.withInput i ((s.input i).resolve (s.linkRuns i) s.cyc.block))
      else s.withInput i ((s.input i).resolve (s.linkRuns i) s.cyc.block) := by
  have h : resolveInput s i =
      if (s.input i).filed s.cyc.block then
        s.withInput i { s.input i with slots := (s.input i).slots.filter fun c => c.1 ≠ s.cyc.block % 256, present := true }
      else if s.linkRuns i then
        let s1 := s.withInput i
          { s.input i with dropouts := sat32 ((s.input i).dropouts + 1), present := false }
        if (s.input i).present then emit (.inputDropout i (sat32 ((s.input i).dropouts + 1))) s1 else s1
      else s.withInput i { s.input i with present := false } := rfl
  rw [h, InputRec.resolve, State.dropsOut]
  cases (s.input i).filed s.cyc.block <;> cases s.linkRuns i <;> simp

/-- What one input's resolution leaves: its own record apart, no input and not the timeline. -/
theorem resolveInput_frame (s : State) (i : Input) :
    (resolveInput s i).cyc = s.cyc ∧ (resolveInput s i).lys = s.lys ∧
      ∀ j, (resolveInput s i).input j =
        if j = i then (s.input i).resolve (s.linkRuns i) s.cyc.block else s.input j := by
  rw [resolveInput_eq]
  split
  · have h := onlyEvents_emit (.inputDropout i (sat32 ((s.input i).dropouts + 1)))
      (s.withInput i ((s.input i).resolve (s.linkRuns i) s.cyc.block))
    obtain ⟨hc, hl, -⟩ := State.inner_fields h.1
    exact ⟨hc, hl, fun j => (h.reads.2.2.1 j).trans (State.withInput_input ..)⟩
  · exact ⟨rfl, rfl, fun j => State.withInput_input ..⟩

theorem resolveInputs_frame : ∀ (is : List Input) (s : State), is.Nodup →
    (is.foldl resolveInput s).cyc = s.cyc ∧ (is.foldl resolveInput s).lys = s.lys ∧
      ∀ j, (is.foldl resolveInput s).input j =
        if j ∈ is then (s.input j).resolve (s.linkRuns j) s.cyc.block else s.input j
  | [], s, _ => ⟨rfl, rfl, fun j => by simp⟩
  | i :: is, s, hn => by
    obtain ⟨hnot, hn'⟩ := List.nodup_cons.1 hn
    obtain ⟨hc, hl, hi⟩ := resolveInput_frame s i
    obtain ⟨kc, kl, ki⟩ := resolveInputs_frame is (resolveInput s i) hn'
    have hr := (keepsHub_resolveInput s i).runs
    rw [List.foldl_cons]
    refine ⟨kc.trans hc, kl.trans hl, fun j => ?_⟩
    rw [ki, hi, hr, hc]
    by_cases hj : j = i
    · subst hj
      simp [hnot]
    · simp [hj]

/-- The inputs after the resolution. -/
theorem resolveAll_input (s : State) (i : Input) :
    (allInputs.foldl resolveInput s).input i = (s.input i).resolve (s.linkRuns i) s.cyc.block := by
  rw [(resolveInputs_frame allInputs s allInputs_nodup).2.2, if_pos (mem_allInputs i)]

theorem pushRings_input (f : Input → Block) : ∀ (is : List Input) (s : State), is.Nodup → ∀ j,
    (is.foldl (pushRing f) s).input j =
      if j ∈ is then { s.input j with ring := f j :: (s.input j).ring.take 255 } else s.input j
  | [], s, _, j => by simp
  | i :: is, s, hn, j => by
    obtain ⟨hnot, hn'⟩ := List.nodup_cons.1 hn
    rw [List.foldl_cons, pushRings_input f is _ hn', pushRing, State.withInput_input]
    by_cases hj : j = i
    · subst hj
      simp [hnot]
    · simp [hj]

/-! ## The block finished -/

/-- The hub after the inputs of the block have been resolved (log 9). -/
def resolved (s : State) : State := allInputs.foldl noteSpill (allInputs.foldl resolveInput s)

/-- The hub after the writes of the block. -/
def written (order : List Input) (s : State) : State :=
  (fullOrder order).foldl (writeInput (resolvedBlock s)) (resolved s)

theorem finishBlock_eq (order : List Input) (s : State) :
    finishBlock order s =
      closeAccount (mixBlock (allInputs.map fun i => (i, resolvedBlock s i))
        (allInputs.foldl (pushRing (resolvedBlock s)) (written order s))) := rfl

/-- An input at the end of its block, but for its pass: resolved, and the resolved block in its ring (R70, R72). -/
theorem finishBlock_input (order : List Input) (s : State) (i : Input) :
    ((finishBlock order s).input i).besidePass =
      { ((s.input i).resolve (s.linkRuns i) s.cyc.block).besidePass with
        ring := resolvedBlock s i :: (s.input i).ring.take 255 } := by
  have hspill : ((resolved s).input i).besidePass = ((s.input i).resolve (s.linkRuns i) s.cyc.block).besidePass := by
    rw [resolved, (keepsInputs_foldl _ keepsInputs_noteSpill _ _).inputs, resolveAll_input]
  have hwritten : ((written order s).input i).besidePass = ((resolved s).input i).besidePass :=
    (keepsInputs_foldl _ (keepsInputs_writeInput (resolvedBlock s)) _ _).inputs i
  have hring : ((s.input i).resolve (s.linkRuns i) s.cyc.block).ring = (s.input i).ring := by
    unfold InputRec.resolve
    split_ifs <;> rfl
  have hr : ((written order s).input i).ring = (s.input i).ring := by
    have := congrArg InputRec.ring (hwritten.trans hspill)
    exact this.trans hring
  rw [finishBlock_eq, ((keepsInputs_mixBlock _ _).trans (keepsInputs_closeAccount _)).inputs,
    pushRings_input _ _ _ allInputs_nodup, if_pos (mem_allInputs i), ← hspill, ← hwritten, hr]
  rfl

/-! ## The timeline over the block -/

theorem mixBlock_cyc (r : List (Input × Block)) (s : State) : (mixBlock r s).cyc = s.cyc := by
  have clip : ∀ (bus : Bus) (b : Block) (x : State), (noteClip bus b x).cyc = x.cyc := by
    intro bus b x
    unfold noteClip
    extract_lets frames count last send last' _ x1
    split
    · rfl
    · split
      · exact (State.inner_fields (onlyEvents_emit _ x1).1).1
      · rfl
  have shed : ∀ (n c a : Nat) (x : State), (noteShed n c a x).cyc = x.cyc := by
    intro n c a x
    unfold noteShed
    extract_lets short _ x1
    split
    · rfl
    · exact (State.inner_fields (onlyEvents_emit _ x1).1).1
  have place : ∀ (a b : Block) (ls : List Link) (x : State), (ls.foldl (placeReturn a b) x).cyc = x.cyc := by
    intro a b ls
    induction ls with
    | nil => exact fun x => rfl
    | cons lk ls ih =>
      intro x
      rw [List.foldl_cons, ih]
      unfold placeReturn
      extract_lets r c place
      split
      · split <;> rfl
      · rfl
  unfold mixBlock
  extract_lets
  rw [place, clip, clip, shed]
  rfl

theorem closeAccount_cyc (s : State) : (closeAccount s).cyc = s.cyc := by
  unfold closeAccount
  split <;> rfl

theorem pushRings_cyc (f : Input → Block) (is : List Input) (s : State) : (is.foldl (pushRing f) s).cyc = s.cyc := by
  induction is generalizing s with
  | nil => rfl
  | cons i is ih => rw [List.foldl_cons, ih]; rfl

theorem finishBlock_cyc (order : List Input) (s : State) : (finishBlock order s).cyc = (written order s).cyc := by
  rw [finishBlock_eq, closeAccount_cyc, mixBlock_cyc, pushRings_cyc]

theorem mapPass_cyc (i : Input) (f : Pass → Pass) (s : State) : (mapPass i f s).cyc = s.cyc := by
  unfold mapPass
  split <;> rfl

theorem mapPass_lys (i : Input) (f : Pass → Pass) (s : State) : (mapPass i f s).lys = s.lys := by
  unfold mapPass
  split <;> rfl

theorem mapPass_pass (i j : Input) (f : Pass → Pass) (s : State) :
    (mapPass i f s).pass j = if j = i then (s.pass j).map f else s.pass j := by
  unfold mapPass
  split
  · next h =>
    split
    · next e => subst e; rw [h]; rfl
    · rfl
  · next p h =>
    rw [State.withPass_pass]
    split
    · next e => subst e; rw [h]; rfl
    · rfl

/-- The note of the spills: no timeline, no layer, and of every pass that flag alone. -/
theorem noteSpills_frame : ∀ (is : List Input) (s : State),
    (is.foldl noteSpill s).cyc = s.cyc ∧ (is.foldl noteSpill s).lys = s.lys ∧
      ∀ j p, (is.foldl noteSpill s).pass j = some p →
        ∃ q, s.pass j = some q ∧ p.cut = q.cut ∧ p.layer = q.layer ∧ p.writePos = q.writePos
  | [], s => ⟨rfl, rfl, fun j p h => ⟨p, h, rfl, rfl, rfl⟩⟩
  | i :: is, s => by
    obtain ⟨hc, hl, hp⟩ := noteSpills_frame is (noteSpill s i)
    rw [List.foldl_cons]
    refine ⟨hc.trans (mapPass_cyc ..), hl.trans (mapPass_lys ..), fun j p h => ?_⟩
    obtain ⟨q, hq, h1, h2, h3⟩ := hp j p h
    rw [noteSpill, mapPass_pass] at hq
    split at hq
    · obtain ⟨r, hr, rfl⟩ := Option.map_eq_some_iff.1 hq
      refine ⟨r, hr, ?_⟩
      split at h1 <;> simp_all
    · exact ⟨q, hq, h1, h2, h3⟩

theorem resolved_cyc (s : State) : (resolved s).cyc = s.cyc :=
  (noteSpills_frame allInputs _).1.trans (resolveInputs_frame allInputs s allInputs_nodup).1

theorem ownPass_mapPass (i : Input) (f : Pass → Pass) (s : State) : ownPass i s (mapPass i f s) := by
  unfold mapPass
  split
  · exact .refl i s
  · exact ownPass_withPass ..

theorem ownPass_foldl {α : Type} {i : Input} {f : State → α → State} (h : ∀ s x, ownPass i s (f s x)) :
    ∀ (xs : List α) (s : State), ownPass i s (xs.foldl f s)
  | [], s => .refl i s
  | x :: xs, s => (h s x).trans (ownPass_foldl h xs (f s x))

theorem ownPass_backfillCopy (i : Input) (s : State) : ownPass i s (backfillCopy i s) := by
  unfold backfillCopy
  split
  · exact .refl i s
  · exact (ownPass_foldl (fun x _ => ownPass_storeBlock i _ _ _ x) _ s).trans (ownPass_mapPass ..)

theorem ownPass_claimSlot (i : Input) (id : LayerId) (slot : Nat) (s : State) : ownPass i s (claimSlot id slot s).1 := by
  unfold claimSlot
  split
  · exact .refl i s
  · exact (onlyStore_claimPage id slot s).ownPass i

theorem ownPass_liveWrite (i : Input) (b : Block) (s : State) : ownPass i s (liveWrite i b s) := by
  unfold liveWrite
  split
  · exact .refl i s
  · next p _ =>
    split
    · have claim := ownPass_claimSlot i p.layer (p.writePos / 256) s
      split
      · next s1 h =>
        rw [h] at claim
        exact claim.trans (ownPass_cutPass ..)
      · next s1 h =>
        rw [h] at claim
        exact claim.trans (((ownPass_storeBlock ..).trans ((onlyStore_mapLayer ..).ownPass i)).trans (ownPass_mapPass ..))
    · exact .refl i s

theorem ownPass_endCutBackfill (i : Input) (s : State) : ownPass i s (endCutBackfill i s) := by
  unfold endCutBackfill
  split
  · split
    · exact ownPass_ite (ownPass_finishCut ..) (.refl i s)
    · exact .refl i s
  · exact .refl i s

theorem ownPass_writeInput (f : Input → Block) (s : State) (i : Input) : ownPass i s (writeInput f s i) :=
  ((ownPass_backfillCopy i s).trans (ownPass_liveWrite ..)).trans (ownPass_endCutBackfill ..)

/-- Outside MEASURING the writes of a block leave the timeline as it is. -/
theorem written_cyc (order : List Input) {s : State} (h : s.cyc.state ≠ .measuring) : (written order s).cyc = s.cyc := by
  have key : ∀ (is : List Input) (x : State), x.cyc = s.cyc →
      (is.foldl (writeInput (resolvedBlock s)) x).cyc = s.cyc := by
    intro is
    induction is with
    | nil => exact fun x hx => hx
    | cons i is ih => exact fun x hx => ih _ (((ownPass_writeInput _ x i).cyc (by rwa [hx])).trans hx)
  exact key _ _ (resolved_cyc s)

end Sys2Proof.Machine
end

section
/-! PROOFS. BLOCK_BOUNDARY (R1, R15, R16, R70, R72): the new block, and the INPUT_DROPOUT events of the old one. -/

namespace Sys2Proof.Machine

/-! ## The new block -/

theorem newBlocks_frame : ∀ (is : List Input) (s : State), ∃ x : Vector InputRec 4,
    is.foldl newBlock s = { s with pse.inputs := x }
  | [], s => ⟨s.pse.inputs, rfl⟩
  | i :: is, s => by
    obtain ⟨x, hx⟩ := newBlocks_frame is (newBlock s i)
    exact ⟨x, hx⟩

theorem newBlocks_input : ∀ (is : List Input) (s : State) (j : Input),
    ((is.foldl newBlock s).input j).besidePass = (s.input j).besidePass
  | [], _, _ => rfl
  | i :: is, s, j => by
    rw [List.foldl_cons, newBlocks_input is, newBlock, State.withInput_input]
    split
    · next e => subst e; rfl
    · rfl

/-- The new block beside the inputs: the timeline, the hand-offs and the phase (R1, R111, R149, R161). -/
theorem newPeriod_frame (s : State) : ∃ x : Vector InputRec 4, newPeriod s = { s with
    cyc := s.cyc.tick s.info, pse.inputs := x, smn := s.smn.advance,
    mxe := { s.mxe with supply := s.smn.supply, thermal := s.smn.thermal },
    tmc := { s.tmc with refresh := refreshOf s.smn.thermal } } := by
  obtain ⟨x, hx⟩ := newBlocks_frame allInputs ((syncHandOffs s).withSmn s.smn.advance)
  refine ⟨x, ?_⟩
  rw [newPeriod, hx]
  rfl

/-- What the new block's record keeps and sets, part by part. -/
theorem newPeriod_fields (s : State) :
    (newPeriod s).cyc = s.cyc.tick s.info ∧ (newPeriod s).smn = s.smn.advance ∧
      (newPeriod s).mxe = { s.mxe with supply := s.smn.supply, thermal := s.smn.thermal } ∧
      (newPeriod s).tmc = { s.tmc with refresh := refreshOf s.smn.thermal } ∧ (newPeriod s).stopped = s.stopped ∧
      (newPeriod s).freeIndex = s.freeIndex ∧ (newPeriod s).pending = s.pending ∧ (newPeriod s).rqu = s.rqu ∧
      (newPeriod s).slk = s.slk := by
  obtain ⟨x, hx⟩ := newPeriod_frame s
  rw [hx]
  exact ⟨rfl, rfl, rfl, rfl, rfl, rfl, rfl, rfl, rfl⟩

theorem adds_newPeriod {P : EventBody → Prop} (s : State) : adds 0 P s (newPeriod s) := by
  obtain ⟨-, -, -, -, -, -, -, hr, hl⟩ := newPeriod_fields s
  exact .of_eq hl hr

theorem newPeriod_input (s : State) (j : Input) : ((newPeriod s).input j).besidePass = (s.input j).besidePass := by
  rw [newPeriod, State.withCyc_input, newBlocks_input]
  rfl

/-- The new block after its marks: what is withheld aside, the new period's record and the inputs as they were (R16). -/
theorem nextBlock_fields (s : State) :
    (∃ w, (nextBlock s).cyc = { s.cyc.tick s.info with withheld := w }) ∧ (nextBlock s).smn = s.smn.advance ∧
      (nextBlock s).mxe = { s.mxe with supply := s.smn.supply, thermal := s.smn.thermal } ∧
      (nextBlock s).tmc = { s.tmc with refresh := refreshOf s.smn.thermal } ∧ (nextBlock s).stopped = s.stopped ∧
      (nextBlock s).freeIndex = s.freeIndex ∧ (nextBlock s).pending = s.pending ∧
      (nextBlock s).rqu.pointer = s.rqu.pointer ∧
      ∀ i, ((nextBlock s).input i).besidePass = (s.input i).besidePass := by
  obtain ⟨w, hev, -⟩ := emitMarks_onlyEvents (newPeriod s)
  obtain ⟨nc, ns, nm, nt, n1, n2, n3, n4, -⟩ := newPeriod_fields s
  obtain ⟨hc, -, -, -, -, hm, -, ht, hs, -, h1, h2, h3⟩ := State.inner_fields hev.1
  rw [nextBlock_eq]
  refine ⟨⟨w, ?_⟩, hs.trans ns, hm.trans nm, ht.trans nt, h1.trans n1, h2.trans n2, h3.trans n3, hev.2.1.trans ?_,
    fun i => ?_⟩
  · rw [hc, State.withCyc_cyc, nc]
  · rw [State.withCyc_rqu, n4]
  · rw [hev.reads.2.2.1 i, State.withCyc_input, newPeriod_input]

/-! ## The dropouts -/

/-- Any body but an INPUT_DROPOUT of this input. -/
def EventBody.notDropout (i : Input) (b : EventBody) : Prop := ∀ n, b ≠ .inputDropout i n

theorem EventBody.ofWork.notDropout {b : EventBody} (h : b.ofWork) (i : Input) : b.notDropout i := by
  rintro n rfl
  simp [EventBody.ofWork, EventBody.kind] at h

/-- Another input's resolution sends at most its own dropout. -/
theorem adds_resolveInput {i k : Input} (h : k ≠ i) (s : State) : adds 1 (·.notDropout i) s (resolveInput s k) := by
  rw [resolveInput_eq]
  refine adds_ite ((adds_withInput ..).after (adds_emit rfl (fun _ => rfl) ?_ _)) (adds_withInput ..).none
  intro n e
  cases e
  exact h rfl

/-- Operations on the members of a list that each append at most one event of a kind. -/
theorem adds_foldl_mem {α : Type} {P : EventBody → Prop} {f : State → α → State} : ∀ {xs : List α},
    (∀ x ∈ xs, ∀ s, adds 1 P s (f s x)) → ∀ s, adds xs.length P s (xs.foldl f s)
  | [], _, s => by simpa using adds.refl P s
  | x :: xs, h, s => by
    have := (h x (by simp) s).trans (adds_foldl_mem (xs := xs) (fun y hy => h y (List.mem_cons_of_mem x hy)) (f s x))
    refine this.le (le_of_eq ?_)
    rw [List.length_cons]
    push_cast
    rw [add_comm]

/-- The resolution of all inputs, seen from one: the others' before it, its own, the others' after it. -/
theorem resolveAll_at (i : Input) (s : State) :
    ∃ x, x.cyc = s.cyc ∧ x.input i = s.input i ∧ adds 3 (·.notDropout i) s x ∧
      adds ⊤ (·.notDropout i) (resolveInput x i) (allInputs.foldl resolveInput s) := by
  obtain ⟨before, after, hsplit⟩ := List.append_of_mem (mem_allInputs i)
  have hn := allInputs_nodup
  rw [hsplit] at hn
  obtain ⟨hb, ha, hdis⟩ := List.nodup_append.1 hn
  have hbefore : ∀ k ∈ before, k ≠ i := fun k hk e => hdis k hk i (by simp) e
  have hafter : ∀ k ∈ after, k ≠ i := fun k hk e => (List.nodup_cons.1 ha).1 (e ▸ hk)
  have hlen : before.length ≤ 3 := by
    have : (before ++ i :: after).length = 4 := by rw [← hsplit]; rfl
    rw [List.length_append, List.length_cons] at this
    omega
  obtain ⟨hc, -, hi⟩ := resolveInputs_frame before s hb
  refine ⟨before.foldl resolveInput s, hc, ?_, ?_, ?_⟩
  · rw [hi, if_neg fun h => hbefore i h rfl]
  · refine (adds_foldl_mem (fun k hk x => adds_resolveInput (hbefore k hk) x) s).le ?_
    exact_mod_cast hlen
  · rw [hsplit, List.foldl_append, List.foldl_cons]
    exact (adds_foldl_mem (fun k hk x => adds_resolveInput (hafter k hk) x) _).top

/-- After its resolution a block sends no dropout (R70). -/
theorem adds_afterResolve (i : Input) (order : List Input) (s : State) :
    adds ⊤ (·.notDropout i) (allInputs.foldl resolveInput s) (nextBlock (finishBlock order s)) := by
  have hP : ∀ b : EventBody, b.ofWork → b.notDropout i := fun b h => h.notDropout i
  have hb : ∀ n, (EventBody.beatMark n).notDropout i := fun n m h => by cases h
  have hc : ∀ l b, (EventBody.cycleMark l b).notDropout i := fun l b m h => by cases h
  have h1 : adds 0 (·.notDropout i) (allInputs.foldl resolveInput s) (resolved s) :=
    adds_foldl_zero (fun x k => adds_mapPass k _ x) allInputs _
  have h2 : adds ⊤ (·.notDropout i) (allInputs.foldl resolveInput s) (written order s) :=
    h1.after (adds_foldl_top (adds_writeInput hP hb hc (resolvedBlock s)) (fullOrder order) _)
  have h3 : adds ⊤ (·.notDropout i) (allInputs.foldl resolveInput s) (finishBlock order s) := by
    rw [finishBlock_eq]
    have ring := h2.andThen (adds_foldl_zero (fun x k => adds_withInput k _ x : ∀ x k, adds 0 _ x
      (pushRing (resolvedBlock s) x k)) allInputs _)
    exact (ring.trans (adds_mixBlock hP _ _)).top.andThen (adds_closeAccount _)
  rw [nextBlock_eq]
  exact ((h3.andThen (adds_newPeriod _)).trans (adds_emitMarks hb hc _)).top

theorem State.info_congr {s u : State} (h : u.cyc = s.cyc) : u.info = s.info := by
  simp only [State.info, h]

/-- INPUT_DROPOUT of one input at a block's end (R70). -/
theorem boundary_dropout (i : Input) (order : List Input) (s : State) (j : Link) :
    (s.dropsOut i = true → s.hears j .inputDropout 4 = true →
      ∃ e ∈ ((nextBlock (finishBlock order s)).link j).events, e.info = s.info ∧
        e.body = .inputDropout i (sat32 ((s.input i).dropouts + 1))) ∧
    (s.dropsOut i = false → ∀ e ∈ ((nextBlock (finishBlock order s)).link j).events, e ∉ (s.link j).events →
      e.body.notDropout i) := by
  obtain ⟨x, hc, hi, hbefore, hafter⟩ := resolveAll_at i s
  have hrest := hafter.trans (adds_afterResolve i order s)
  have hdrops : x.dropsOut i = s.dropsOut i := by
    simp only [State.dropsOut, hi, hc, hbefore.runs]
  have hres := resolveInput_eq x i
  rw [hdrops] at hres
  refine ⟨fun hd hh => ?_, fun hd e he hn => ?_⟩
  · rw [if_pos hd] at hres
    have hx : x.hears j .inputDropout 1 = true := hbefore.hears (m := 3) le_rfl hh
    have hx' : (x.withInput i ((x.input i).resolve (x.linkRuns i) x.cyc.block)).hears j .inputDropout 1 = true := hx
    have hev := emitAt_heard hx' (x.withInput i ((x.input i).resolve (x.linkRuns i) x.cyc.block)).info
      (.inputDropout i (sat32 ((x.input i).dropouts + 1))) rfl rfl rfl
    refine ⟨_, hrest.mem (e := ⟨.inputDropout i (sat32 ((x.input i).dropouts + 1)), x.info,
      ((x.withInput i ((x.input i).resolve (x.linkRuns i) x.cyc.block)).station j).missed, false⟩) ?_, ?_, ?_⟩
    · rw [hres, emit, hev]
      exact List.mem_append_right _ (List.mem_singleton.2 rfl)
    · exact State.info_congr hc
    · rw [hi]
  · rw [if_neg (by simp [hd])] at hres
    have hsame : adds 0 (·.notDropout i) x (resolveInput x i) := by
      rw [hres]
      exact adds_withInput ..
    exact ((hbefore.andThen hsame).trans hrest).new he hn

/-- The fields of an input that its pass is none of. -/
theorem InputRec.besidePass_fields {x y : InputRec} (h : x.besidePass = y.besidePass) :
    x.slots = y.slots ∧ x.present = y.present ∧ x.dropouts = y.dropouts ∧ x.ring = y.ring := by
  simp only [InputRec.besidePass, InputRec.mk.injEq] at h
  obtain ⟨h1, h2, h3, -, -, -, -, -, -, -, -, h4, -⟩ := h
  exact ⟨h1, h2, h4, h3⟩

/-! ## BLOCK_BOUNDARY -/

/-- Settles O10: the block's end through `newPeriod` and `finishBlock_input`, its events through the resolution. -/
theorem boundaryEndsThePeriod : Obligations.BoundaryEndsThePeriod := by
  refine ⟨fun order s hstop => ⟨_, exec_blockBoundary hstop order, ?_⟩, fun order s hstop =>
    ⟨_, exec_blockBoundary hstop order, fun i => ?_⟩⟩
  · have hk := (keepsInputs_settleAll s).tokeepsHub.trans (keepsHub_finishBlock order _)
    generalize finishBlock order (settleAll s) = u at hk
    obtain ⟨⟨w, hc⟩, hs, hm, ht, h1, h2, h3, hp, -⟩ := nextBlock_fields u
    rw [hc, hs, hm, ht, h1, h2, h3, hp, hk.smn, hk.stopped, hk.freeIndex, hk.pending, hk.pointer, Cyc.tick, hk.cyc.1]
    refine ⟨rfl, rfl, rfl, rfl, rfl, ?_, hstop, rfl, rfl, rfl⟩
    cases s.smn.thermal <;> rfl
  · intro r stamp filed resolvedI
    have hk := keepsInputs_settleAll s
    have hin : ((nextBlock (finishBlock order (settleAll s))).input i).besidePass =
        ((finishBlock order (settleAll s)).input i).besidePass := by
      obtain ⟨-, -, -, -, -, -, -, -, h⟩ := nextBlock_fields (finishBlock order (settleAll s))
      exact h i
    have hold := hk.inputs i
    rw [finishBlock_input, hk.runs, hk.cyc.1] at hin
    obtain ⟨hslots, -, hdrops, hring⟩ := InputRec.besidePass_fields hold
    have hfiled : ((settleAll s).input i).filed s.cyc.block = filed := by
      unfold InputRec.filed
      rw [hslots]
    have hresolved : resolvedBlock (settleAll s) i = resolvedI := by
      rw [resolvedBlock, hslots, hk.cyc.1]
    have hin' : ((nextBlock (finishBlock order (settleAll s))).input i).besidePass =
        ({ ((settleAll s).input i).resolve (s.linkRuns i) s.cyc.block with
          ring := resolvedBlock (settleAll s) i :: ((settleAll s).input i).ring.take 255 } : InputRec).besidePass := hin
    obtain ⟨f1, f2, f3, f4⟩ := InputRec.besidePass_fields hin'
    clear hin hin' hold
    generalize (settleAll s).input i = q at hslots hdrops hring hfiled f1 f2 f3 f4
    refine ⟨?_, ?_, ?_, ?_, fun hset hov hst j => ?_⟩
    · rw [f1, InputRec.resolve, hfiled]
      cases hf : filed
      · simp only [Bool.false_eq_true, if_false]
        have hall : r.slots.filter (fun c => c.1 ≠ stamp) = r.slots := by
          refine List.filter_eq_self.2 fun c hc => ?_
          simp only [filed, List.any_eq_false, decide_eq_true_eq] at hf
          simpa using hf c hc
        rw [hall]
        split
        · exact hslots
        · exact hslots
      · rw [hslots]
        rfl
    · rw [f2, InputRec.resolve, hfiled]
      cases filed
      · simp only [Bool.false_eq_true, if_false]
        split <;> rfl
      · rfl
    · rw [f3, InputRec.resolve, hfiled, hdrops]
      cases filed <;> cases s.linkRuns i <;> rfl
    · rw [f4, hresolved, hring]
    · rw [settleAll_of_settled hset hov hst] at *
      obtain ⟨h1, h2⟩ := boundary_dropout i order s j
      refine ⟨fun hf hr hp hh => ?_, fun h => h2 ?_⟩
      · refine h1 ?_ hh
        have : (s.input i).filed s.cyc.block = false := hf
        have hp' : (s.input i).present = true := hp
        simp [State.dropsOut, this, hr, hp']
      · have hfd : (s.input i).filed s.cyc.block = filed := rfl
        obtain h | h | h := h
        · simp [State.dropsOut, hfd, h]
        · simp [State.dropsOut, h]
        · have hp' : (s.input i).present = false := h
          simp [State.dropsOut, hp']

end Sys2Proof.Machine
end

section
/-! PROOFS. The position over a boundary (R15), and the marks of the new block (R16, R18). -/

namespace Sys2Proof.Machine

/-! ## The order of the writes (R56) -/

theorem fullOrder_nodup (order : List Input) : (fullOrder order).Nodup := by
  have key : ∀ (is acc : List Input), acc.Nodup →
      (is.foldl (fun acc i => if acc.contains i then acc else acc ++ [i]) acc).Nodup := by
    intro is
    induction is with
    | nil => exact fun acc h => h
    | cons i is ih =>
      intro acc h
      rw [List.foldl_cons]
      refine ih _ ?_
      split
      · exact h
      · next hn =>
        have hni : i ∉ acc := by simpa using hn
        exact List.nodup_append.2 ⟨h, List.nodup_singleton i, fun a ha b hb e =>
          hni (by rw [← List.mem_singleton.1 hb, ← e]; exact ha)⟩
  exact key _ [] List.nodup_nil

/-! ## Passes that write on (R81) -/

/-- The pass of an input, if one is open, is not cut and has a page at its write position. -/
def State.writesOn (s : State) (i : Input) : Prop :=
  ∀ p, s.pass i = some p → p.cut = none ∧
    ∃ l, s.layer p.layer = some l ∧ (slotPage l.map (p.writePos / 256)).isSome = true

/-- `u` has the timeline and the page maps of `s`. -/
structure keepsMaps (s u : State) : Prop where
  cyc : u.cyc = s.cyc
  maps : ∀ id l, s.layer id = some l → ∃ k, u.layer id = some k ∧ k.map = l.map

theorem keepsMaps.refl (s : State) : keepsMaps s s := ⟨rfl, fun _ l h => ⟨l, h, rfl⟩⟩

theorem keepsMaps.trans {s u v : State} (h : keepsMaps s u) (k : keepsMaps u v) : keepsMaps s v := by
  refine ⟨k.cyc.trans h.cyc, fun id l hl => ?_⟩
  obtain ⟨m, hm, e⟩ := h.maps id l hl
  obtain ⟨n, hn, e'⟩ := k.maps id m hm
  exact ⟨n, hn, e'.trans e⟩

theorem keepsMaps.of_eq {s u : State} (hc : u.cyc = s.cyc) (hl : u.lys = s.lys) : keepsMaps s u :=
  ⟨hc, fun id l h => ⟨l, by simpa only [State.layer, hl] using h, rfl⟩⟩

theorem keepsMaps_storeBlock (id : LayerId) (pos : Nat) (b : Block) (s : State) : keepsMaps s (storeBlock id pos b s) := by
  rw [(storeBlock_mem id pos b s).1]
  exact .of_eq rfl rfl

theorem keepsMaps_mapPass (i : Input) (f : Pass → Pass) (s : State) : keepsMaps s (mapPass i f s) :=
  .of_eq (mapPass_cyc ..) (mapPass_lys ..)

theorem keepsMaps_written (id : LayerId) (n : Nat) (s : State) :
    keepsMaps s (mapLayer id (fun l => { l with written := n }) s) := by
  unfold mapLayer
  split
  · exact .refl s
  · next l hl =>
    refine ⟨rfl, fun k m hm => ?_⟩
    rw [State.withLayer_layer]
    split
    · next e =>
      subst e
      rw [hl] at hm
      cases hm
      exact ⟨_, rfl, rfl⟩
    · exact ⟨m, hm, rfl⟩

theorem storeBlock_pse (id : LayerId) (pos : Nat) (b : Block) (s : State) : (storeBlock id pos b s).pse = s.pse := by
  rw [(storeBlock_mem id pos b s).1]
  rfl

theorem storeBlock_lys (id : LayerId) (pos : Nat) (b : Block) (s : State) : (storeBlock id pos b s).lys = s.lys := by
  rw [(storeBlock_mem id pos b s).1]
  rfl

/-- The backfill of a pass keeps the page maps, and of the pass all but what is left to copy. -/
theorem backfillCopy_frame (i : Input) (s : State) :
    keepsMaps s (backfillCopy i s) ∧ ∀ p, s.pass i = some p →
      (backfillCopy i s).pass i = some { p with backfill := p.backfill - min 8 p.backfill } := by
  have store : ∀ (p : Pass) (c : Nat) (js : List Nat) (x : State),
      keepsMaps x (js.foldl (fun s j => backfillOne i p (c + j) s) x) ∧
        (js.foldl (fun s j => backfillOne i p (c + j) s) x).pse = x.pse := by
    intro p c js
    induction js with
    | nil => exact fun x => ⟨.refl x, rfl⟩
    | cons j js ih =>
      intro x
      obtain ⟨h1, h2⟩ := ih (backfillOne i p (c + j) x)
      exact ⟨(keepsMaps_storeBlock ..).trans h1, h2.trans (storeBlock_pse ..)⟩
  cases hp : s.pass i with
  | none => exact ⟨by simpa only [backfillCopy, hp] using keepsMaps.refl s, fun p h => by cases h⟩
  | some p =>
    simp only [backfillCopy, hp]
    obtain ⟨h1, h2⟩ := store p (p.snap - p.backfill) (List.range (min 8 p.backfill)) s
    refine ⟨h1.trans (keepsMaps_mapPass ..), fun q hq => ?_⟩
    cases hq
    rw [mapPass_pass, if_pos rfl, State.pass_congr h2, hp]
    rfl

/-- A pass that writes on stores its block and nothing else: no claim, no cut. -/
theorem liveWrite_frame {i : Input} {s : State} (h : s.writesOn i) (b : Block) :
    keepsMaps s (liveWrite i b s) ∧ ∀ p, (liveWrite i b s).pass i = some p → p.cut = none := by
  cases hp : s.pass i with
  | none => exact ⟨by simpa only [liveWrite, hp] using keepsMaps.refl s, fun p hq => by simp [liveWrite, hp] at hq⟩
  | some p =>
    obtain ⟨hcut, l, hl, hpage⟩ := h p hp
    have hclaim : claimSlot p.layer (p.writePos / 256) s = (s, true) := by
      rw [claimSlot, if_pos (by rw [hl]; exact hpage)]
    simp only [liveWrite, hp]
    split
    · rw [hclaim]
      refine ⟨((keepsMaps_storeBlock ..).trans (keepsMaps_written ..)).trans (keepsMaps_mapPass ..), fun q hq => ?_⟩
      rw [mapPass_pass, if_pos rfl, State.pass_congr ((onlyStore_mapLayer ..).fields.2.1.trans (storeBlock_pse ..)), hp]
        at hq
      cases hq
      exact hcut
    · refine ⟨.refl s, fun q hq => ?_⟩
      rw [hp] at hq
      cases hq
      exact hcut

theorem endCutBackfill_of_uncut {i : Input} {s : State} (h : ∀ p, s.pass i = some p → p.cut = none) :
    endCutBackfill i s = s := by
  unfold endCutBackfill
  split
  · next p hp => simp only [h p hp]
  · rfl

theorem State.writesOn.keep {s u : State} {i : Input} (h : s.writesOn i) (hm : keepsMaps s u)
    (hp : ∀ p, u.pass i = some p → ∃ q, s.pass i = some q ∧ p.cut = q.cut ∧ p.layer = q.layer ∧ p.writePos = q.writePos) :
    u.writesOn i := by
  intro p hu
  obtain ⟨q, hq, h1, h2, h3⟩ := hp p hu
  obtain ⟨hcut, l, hl, hpage⟩ := h q hq
  obtain ⟨k, hk, e⟩ := hm.maps _ l hl
  exact ⟨h1.trans hcut, k, by rw [h2]; exact hk, by rw [e, h3]; exact hpage⟩

/-- The write of one pass that writes on: the timeline and the page maps stay. -/
theorem writeInput_frame {i : Input} {s : State} (h : s.writesOn i) (f : Input → Block) :
    keepsMaps s (writeInput f s i) := by
  obtain ⟨h1, hp⟩ := backfillCopy_frame i s
  have hon : (backfillCopy i s).writesOn i := by
    refine h.keep h1 fun p hq => ?_
    cases hs : s.pass i with
    | none => simp [backfillCopy, hs] at hq
    | some q =>
      rw [hp q hs] at hq
      cases hq
      exact ⟨q, rfl, rfl, rfl, rfl⟩
  obtain ⟨h2, hcut⟩ := liveWrite_frame hon (f i)
  rw [writeInput, endCutBackfill_of_uncut hcut]
  exact h1.trans h2

/-- Where every pass writes on, the writes of a block leave the timeline as it is. -/
theorem writeInputs_cyc (f : Input → Block) : ∀ (is : List Input) (s : State), is.Nodup → (∀ i ∈ is, s.writesOn i) →
    (is.foldl (writeInput f) s).cyc = s.cyc
  | [], _, _, _ => rfl
  | i :: is, s, hn, h => by
    obtain ⟨hnot, hn'⟩ := List.nodup_cons.1 hn
    have hi := writeInput_frame (h i (by simp)) f
    rw [List.foldl_cons, writeInputs_cyc f is _ hn' fun j hj => ?_, hi.cyc]
    have hji : j ≠ i := fun e => hnot (e ▸ hj)
    refine (h j (by simp [hj])).keep hi fun p hp => ⟨p, ?_, rfl, rfl, rfl⟩
    rw [← (ownPass_writeInput f s i).pass hji, hp]

theorem resolved_writesOn {s : State} {i : Input} (h : s.writesOn i) : (resolved s).writesOn i := by
  obtain ⟨hc, hl, hi⟩ := resolveInputs_frame allInputs s allInputs_nodup
  obtain ⟨kc, kl, kp⟩ := noteSpills_frame allInputs (allInputs.foldl resolveInput s)
  refine h.keep (.of_eq (kc.trans hc) (kl.trans hl)) fun p hp => ?_
  obtain ⟨q, hq, h1, h2, h3⟩ := kp i p hp
  refine ⟨q, ?_, h1, h2, h3⟩
  rw [State.pass_eq_input, resolveAll_input] at hq
  rw [State.pass_eq_input, ← hq]
  unfold InputRec.resolve
  split_ifs <;> rfl

theorem finishBlock_cyc_of_writesOn (order : List Input) {s : State} (h : ∀ i, s.writesOn i) :
    (finishBlock order s).cyc = s.cyc := by
  rw [finishBlock_cyc, written, writeInputs_cyc _ _ _ (fullOrder_nodup order) fun i _ => resolved_writesOn (h i),
    resolved_cyc]

/-! ## BLOCK_BOUNDARY -/

theorem Cyc.advance_of_not_running {c : Cyc} (h : c.state ≠ .running) : c.advance = c := by
  unfold Cyc.advance
  split
  · next hs _ _ => exact absurd hs h
  · rfl

theorem Cyc.advance_running {c : Cyc} {p l : Nat} (hs : c.state = .running) (hp : c.pos = some p) (hl : c.len = some l) :
    c.advance =
      if p + 1 < l then { c with pos := some (p + 1) } else { c with pos := some 0, count := (c.count + 1) % 53760 } := by
  simp only [Cyc.advance, hs, hp, hl]

/-- The advance keeps the timeline's state and its cycle. -/
theorem Cyc.advance_frame (c : Cyc) :
    c.advance.state = c.state ∧ c.advance.len = c.len ∧ c.advance.beats = c.beats := by
  unfold Cyc.advance
  split
  · split <;> exact ⟨rfl, rfl, rfl⟩
  · exact ⟨rfl, rfl, rfl⟩

/-- Settles O11: the tick of the timeline that settling and finishing leave, and the new block's marks. -/
theorem boundaryAdvancesThePosition : Obligations.BoundaryAdvancesThePosition := by
  refine ⟨fun order s hstop hset hov hst => ⟨_, exec_blockBoundary hstop order, ?_⟩,
    fun order s hstop hset hov hst hb hpass => ⟨_, exec_blockBoundary hstop order, ?_⟩,
    fun order s hstop => ⟨_, newPeriod (finishBlock order (settleAll s)), exec_blockBoundary hstop order, ?_⟩⟩
  · have hc : (finishBlock order (settleAll s)).cyc = s.cyc := by
      have hs := settleAll_cyc hset hov
      rw [finishBlock_cyc, written_cyc order (by rwa [hs]), hs]
    generalize finishBlock order (settleAll s) = u at hc
    obtain ⟨⟨w, hw⟩, -⟩ := nextBlock_fields u
    rw [hw, Cyc.tick, hc]
    obtain ⟨a1, a2, a3⟩ := s.cyc.advance_frame
    refine ⟨a1, a2, a3, fun hn => ?_, fun p l hr hp hl => ⟨fun hlt => ?_, fun he => ?_⟩⟩
    · rw [Cyc.advance_of_not_running hn]
      exact ⟨rfl, rfl⟩
    · rw [Cyc.advance_running hr hp hl, if_pos hlt]
      exact ⟨rfl, rfl⟩
    · rw [Cyc.advance_running hr hp hl, if_neg (by omega)]
      exact ⟨rfl, rfl⟩
  · have hstroke : s.strokeDue = false := by simp [State.strokeDue, hb]
    rw [settleAll_of_settled hset hov hstroke]
    have hc := finishBlock_cyc_of_writesOn order (s := s) fun i p hp => hpass i p hp
    generalize finishBlock order s = u at hc
    have hn : u.cyc.state ≠ .running := by rw [hc, hst]; decide
    have hnew : (newPeriod u).cyc.state ≠ .running := by
      rw [newPeriod_cyc, Cyc.tick, Cyc.advance_of_not_running hn]
      exact hn
    rw [nextBlock_eq, emitMarks_of_not_running hnew, newPeriod_cyc, Cyc.tick, Cyc.advance_of_not_running hn, hc,
      State.info_congr hc]
    rfl
  · rw [nextBlock_eq]
    have hwithheld : (newPeriod (finishBlock order (settleAll s))).cyc.withheld = false := by
      rw [newPeriod_cyc]
      rfl
    generalize newPeriod (finishBlock order (settleAll s)) = v at hwithheld
    obtain ⟨w, hev, -⟩ := emitMarks_onlyEvents v
    obtain ⟨fc, -, -, -, fa, -, -, ft, -⟩ := State.inner_fields hev.1
    refine ⟨hwithheld, ?_, fa, ft, ?_⟩
    · rw [fc]
      rfl
    intro leaves
    refine ⟨emitMarks_of_not_running, fun p l b hs hp hl hb => ?_⟩
    have hleaves : v.leavesRunning = leaves := rfl
    rw [emitMarks_running hs hp hl hb, hleaves]
    refine ⟨fun hm => if_neg hm, fun hm hk => ?_, fun hm hk hp0 => ?_, fun hp0 hk => ?_⟩
    · rw [if_pos hm, if_pos hk]
    · rw [if_pos hm, if_neg (by simp [hk]), sendMarks, if_neg hp0]
    · subst hp0
      rw [if_pos (Nat.zero_mod _), if_neg (by simp [hk]), sendMarks, if_pos rfl, Nat.zero_div]

end Sys2Proof.Machine
end

section
/-! PROOFS. SONG_CLEAR refuted: POOL_LOW does not carry the fields from before the return to UNSET where an abort of a
measuring pass has made that return already (R14, log 52). -/

namespace Sys2Proof.Machine

/-- Track T0 records its first pass from input 0 on layer L3, with the cycle count 1 that a legal MEASURING timeline never
shows, twelve pages free and the low flag off. Station 0 hears of the pool; station 1 asks for SONG_CLEAR. -/
def countedMeasuring : State :=
  let pass : Pass :=
    { state := .writing, track := 0, kind := .measure, layer := 3, start := 0, snap := 0, close := none, writePos := 0,
      backfill := 0, cut := none, order := 0, spillReady := false }
  let layer : Layer :=
    { state := .recording, track := 0, input := some 0, length := none, start := 0, written := 0, map := [(0, 10)],
      level := 256, pinned := false, serial := 0, stamp := none }
  let run : LinkRec := { LinkRec.reset with state := .run }
  let hub : State :=
    { State.reset with
      cyc := { Cyc.reset with state := .measuring, measureStart := some 0, count := 1 },
      pgp := { Pgp.reset with free := [100, 101, 102, 103, 104, 105, 106, 107, 108, 109, 110, 111] },
      slk := ⟨Vector.replicate 4 run, [], 0⟩ }
  (((hub.withLayer 3 (some layer)).withPass 0 (some pass)).withStation 0 { Settings.reset with subs := allKinds }).withLink 1
    { run with requests := [⟨[0x05, 0x01], false⟩] }

theorem exec_songClear (lk : Link) (tag : Byte) (s : State) :
    exec (.songClear lk tag) s = .next (serve lk (.songClear lk tag) 0x05 (some tag) true ownSongClear s) := rfl

/-- The hub after SONG_CLEAR. -/
def countedCleared : State := serve 1 (.songClear 1 0x01) 0x05 (some 0x01) true ownSongClear countedMeasuring

theorem countedMeasuring_ready :
    countedMeasuring.ready 1 (.songClear 1 0x01) = true ∧ countedMeasuring.inHold = false ∧
      countedMeasuring.hears 0 .poolLow 8 = true := by decide +kernel

/-- The freeing moves the low flag, and no event carries POOL_LOW with the cycle count from before. -/
theorem countedCleared_poolLow :
    countedCleared.pgp.low ≠ countedMeasuring.pgp.low ∧
      ∀ e ∈ (countedCleared.link 0).events, e.info = countedMeasuring.info → e.body.kind ≠ .poolLow := by
  decide +kernel

/-- Refutes O22: where the timeline is MEASURING, the abort of its pass returns it to UNSET with C = 0 before the low mark is
tested (R14), so POOL_LOW shows C = 0 and not the C of before. The hub that shows it has C = 1 in MEASURING, which the
statement allows though no legal timeline has it. -/
theorem not_songClearEndsTheLoopSet : ¬ Obligations.SongClearEndsTheLoopSet := by
  intro h
  obtain ⟨hready, hhold, hhears⟩ := countedMeasuring_ready
  obtain ⟨t, hexec, -, -, -, hlow, -⟩ := h countedMeasuring 1 0x01 hready hhold
  rw [exec_songClear] at hexec
  obtain rfl : countedCleared = t := Host.Outcome.next.inj hexec
  obtain ⟨hmoved, hnone⟩ := countedCleared_poolLow
  obtain ⟨e, he, hinfo, hbody⟩ := hlow hmoved 0 hhears
  exact hnone e he hinfo (by rw [hbody]; rfl)

end Sys2Proof.Machine
end

section
/-! PROOFS. LAYER_UNDO (R38, R39, R75, R91): the freeing of a layer, the abort of a pass, the newest pass of a track. -/

namespace Sys2Proof.Machine

/-! ## A layer freed (R30) -/

/-- A layer freed, as updates: its track's lists, the pool, its record. -/
theorem dropLayer_eq {id : LayerId} {s : State} {l : Layer} (h : s.layer id = some l) :
    dropLayer id s = ((s.withTrack l.track
        { s.track l.track with stack := (s.track l.track).stack.filter (· ≠ id),
                               redo := (s.track l.track).redo.filter (· ≠ id) }).withPgp
        { s.pgp with
          free := s.pgp.free ++ l.map.map (·.2),
          pinnedTotal := if l.pinned then s.pgp.pinnedTotal - l.map.length else s.pgp.pinnedTotal }).withLayer id none := by
  simp only [dropLayer, h]
  rfl

/-- The track with `id` gone from both its lists. -/
def Track.without (tr : Track) (id : LayerId) : Track :=
  { tr with stack := tr.stack.filter (· ≠ id), redo := tr.redo.filter (· ≠ id) }

theorem dropLayer_track {id : LayerId} {s : State} {l : Layer} (h : s.layer id = some l) (t : TrackId) :
    (dropLayer id s).track t = if t = l.track then (s.track t).without id else s.track t := by
  rw [dropLayer_eq h, State.withLayer_track, State.withPgp_track, State.withTrack_track]
  split
  · next e => subst e; rfl
  · rfl

theorem dropLayer_layer (id : LayerId) (s : State) (k : LayerId) :
    (dropLayer id s).layer k = if k = id then none else s.layer k := by
  cases h : s.layer id with
  | none =>
    rw [dropLayer_of_none h]
    split
    · next e => rw [e, h]
    · rfl
  | some l => rw [dropLayer_eq h, State.withLayer_layer, State.withPgp_layer, State.withTrack_layer]

theorem dropLayer_pgp {id : LayerId} {s : State} {l : Layer} (h : s.layer id = some l) :
    (dropLayer id s).pgp = { s.pgp with
      free := s.pgp.free ++ l.map.map (·.2),
      pinnedTotal := if l.pinned then s.pgp.pinnedTotal - l.map.length else s.pgp.pinnedTotal } := by
  rw [dropLayer_eq h]
  rfl

theorem dropLayer_counters (id : LayerId) (s : State) :
    (dropLayer id s).lys.serials = s.lys.serials ∧ (dropLayer id s).lys.parks = s.lys.parks := by
  cases h : s.layer id with
  | none => rw [dropLayer_of_none h]; exact ⟨rfl, rfl⟩
  | some l => rw [dropLayer_eq h]; exact ⟨rfl, rfl⟩

/-! ## The track of a pass that is gone (R24) -/

/-- The track returns to EMPTY: its lists are empty and no pass is open on it. -/
def State.emptied (s : State) (t : TrackId) : Prop :=
  (s.track t).state ≠ .empty ∧ (s.track t).stack = [] ∧ (s.track t).redo = [] ∧ s.passOn t = false

theorem settleTrack_of_emptied {t : TrackId} {s : State} (h : s.emptied t) :
    settleTrack t s = s.withTrack t { s.track t with state := .empty, mult := none, anchor := none } := by
  obtain ⟨h1, h2, h3, h4⟩ := h
  rw [settleTrack]
  exact if_pos (by simp [h1, h2, h3, h4])

theorem settleTrack_of_not {t : TrackId} {s : State} (h : ¬ s.emptied t) : settleTrack t s = s := by
  rw [settleTrack]
  refine if_neg fun hc => h ?_
  simpa [State.emptied, and_assoc] using hc

theorem settleTrack_frame (t : TrackId) (s : State) :
    (settleTrack t s).pgp = s.pgp ∧ (settleTrack t s).lys.layers = s.lys.layers ∧
      (settleTrack t s).lys.serials = s.lys.serials ∧ (settleTrack t s).lys.parks = s.lys.parks ∧
      ∀ u, u ≠ t → (settleTrack t s).track u = s.track u := by
  by_cases h : s.emptied t
  · rw [settleTrack_of_emptied h]
    exact ⟨rfl, rfl, rfl, rfl, fun u hu => State.withTrack_track_ne s _ hu⟩
  · rw [settleTrack_of_not h]
    exact ⟨rfl, rfl, rfl, rfl, fun u _ => rfl⟩

theorem State.passOn_iff (s : State) (t : TrackId) : s.passOn t = true ↔ ∃ j q, s.pass j = some q ∧ q.track = t := by
  simp only [State.passOn, List.any_eq_true, Option.any_eq_true, decide_eq_true_eq]
  exact ⟨fun ⟨j, _, q, h⟩ => ⟨j, q, h⟩, fun ⟨j, q, h⟩ => ⟨j, mem_allInputs j, q, h⟩⟩

/-! ## The abort of a pass (R91) -/

/-- The hub after the end of a pass that leaves nothing: the record ENDED, its layer freed, its track and the timeline
settled (R91). -/
def dropPass (i : Input) (p : Pass) (s : State) : State :=
  stopMeasuring p.kind (settleTrack p.track (dropLayer p.layer (clearPass false i s)))

theorem abortPass_eq {i : Input} {s : State} {p : Pass} (hp : s.pass i = some p) :
    abortPass true true i s =
      emit (passEndedBody i p (s.layer p.layer) s.cyc.len .aborted none 0) (lowMark (dropPass i p s)) := by
  simp only [abortPass, hp, if_true, dropPass]

/-- What an abort of the pass `p` of input `i`, which records layer `l` on track `t`, leaves and what it changes. -/
structure Aborted (i : Input) (p : Pass) (l : Layer) (t : TrackId) (s u : State) : Prop where
  inner : u.inner = ({ s with cyc := u.cyc, lys := u.lys, pgp := u.pgp, pse := u.pse } : State).inner
  input : u.input i = { s.input i with pass := none, endedHere := true }
  inputs : ∀ j, j ≠ i → u.input j = s.input j
  openings : u.pse.openings = s.pse.openings
  layers : ∀ id, u.layer id = if id = p.layer then none else s.layer id
  serials : u.lys.serials = s.lys.serials
  parks : u.lys.parks = s.lys.parks
  emptied : ((s.track t).without p.layer).stack = [] → ((s.track t).without p.layer).redo = [] →
    (s.track t).state ≠ .empty → (∀ j q, j ≠ i → s.pass j = some q → q.track ≠ t) →
    u.track t = { (s.track t).without p.layer with state := .empty, mult := none, anchor := none }
  stays : ((s.track t).without p.layer).stack ≠ [] ∨ ((s.track t).without p.layer).redo ≠ [] ∨
    (∃ j q, j ≠ i ∧ s.pass j = some q ∧ q.track = t) → u.track t = (s.track t).without p.layer
  tracks : ∀ v, v ≠ t → u.track v = s.track v
  pgp : u.pgp = { s.pgp with
    free := s.pgp.free ++ l.map.map (·.2), low := u.pgp.low,
    lowest := min s.pgp.lowest (s.pgp.free.length + l.map.length),
    pinnedTotal := if l.pinned then s.pgp.pinnedTotal - l.map.length else s.pgp.pinnedTotal }
  cyc : u.cyc = if p.kind = .measure ∧ s.cyc.state = .measuring then { s.cyc.toUnset with count := 0 } else s.cyc

/-- An abort is about the inner hub, the reads of which it names: two states of one inner hub are aborted alike. -/
theorem Aborted.of_inner {i : Input} {p : Pass} {l : Layer} {t : TrackId} {s x u : State} (hi : x.inner = s.inner)
    (h : Aborted i p l t x u) : Aborted i p l t s u := by
  obtain ⟨e1, e2, e3, e4, e5, e6, e7, e8, e9, e10, e11, e12, e13⟩ := State.inner_fields hi
  have ht : ∀ v, x.track v = s.track v := fun v => by simp only [State.track, e2]
  have hl : ∀ k, x.layer k = s.layer k := fun k => by simp only [State.layer, e2]
  have hn : ∀ j, x.input j = s.input j := fun j => by simp only [State.input, e4]
  have hp : ∀ j, x.pass j = s.pass j := fun j => by simp only [State.pass, e4]
  have := h
  obtain ⟨h1, h2, h3, h4, h5, h6, h7, h8, h9, h10, h11, h12⟩ := this
  simp only [ht, hl, hn, hp, e1, e2, e3, e4] at h2 h3 h4 h5 h6 h7 h8 h9 h10 h11 h12
  refine ⟨?_, h2, h3, h4, h5, h6, h7, h8, h9, h10, h11, h12⟩
  rw [h1]
  simp only [State.inner, e5, e6, e7, e8, e9, e10, e11, e12, e13]

theorem stopMeasuring_frame (k : PassKind) (s : State) :
    stopMeasuring k s = s.withCyc
      (if k = .measure ∧ s.cyc.state = .measuring then { s.cyc.toUnset with count := 0 } else s.cyc) := by
  unfold stopMeasuring
  by_cases h : k = .measure ∧ s.cyc.state = .measuring
  · simp [h]
  · rw [if_neg (by simpa using h), if_neg h]
    rfl

theorem dropPass_aborted {i : Input} {s : State} {p : Pass} {l : Layer} (hl : s.layer p.layer = some l)
    (ht : l.track = p.track) :
    Aborted i p l p.track s (lowMark (dropPass i p s)) := by
  have hlc : (clearPass false i s).layer p.layer = some l := hl
  have htrack : ∀ v, (dropLayer p.layer (clearPass false i s)).track v =
      if v = p.track then (s.track v).without p.layer else s.track v := by
    intro v
    rw [dropLayer_track hlc, ht]
    rfl
  have hstop := stopMeasuring_frame p.kind (settleTrack p.track (dropLayer p.layer (clearPass false i s)))
  obtain ⟨sp, sl, ss, sk, su⟩ := settleTrack_frame p.track (dropLayer p.layer (clearPass false i s))
  have hcleared := (onlyStore_dropLayer p.layer (clearPass false i s)).trans (onlyStore_settleTrack p.track _)
  obtain ⟨fc, fp, -⟩ := hcleared.fields
  have hlow := onlyStore_lowMark (dropPass i p s)
  obtain ⟨gc, gp, -, -, -, -, -, gm, -⟩ := hlow.fields
  have hpse : (lowMark (dropPass i p s)).pse = (clearPass false i s).pse := by
    rw [gp, dropPass, hstop, State.withCyc_pse, fp]
  have hlys : (lowMark (dropPass i p s)).lys =
      (settleTrack p.track (dropLayer p.layer (clearPass false i s))).lys := by
    rw [lowMark_lys, dropPass, hstop, State.withCyc_lys]
  have htr : ∀ v, (lowMark (dropPass i p s)).track v =
      (settleTrack p.track (dropLayer p.layer (clearPass false i s))).track v := fun v => by
    simp only [State.track, hlys]
  have hon : (dropLayer p.layer (clearPass false i s)).passOn p.track = true ↔
      ∃ j q, j ≠ i ∧ s.pass j = some q ∧ q.track = p.track := by
    have hpass : ∀ j, (dropLayer p.layer (clearPass false i s)).pass j = if j = i then none else s.pass j := by
      intro j
      rw [State.pass_congr (onlyStore_dropLayer p.layer (clearPass false i s)).fields.2.1, clearPass, State.withInput_pass]
    rw [State.passOn_iff]
    refine exists_congr fun j => exists_congr fun q => ?_
    rw [hpass]
    by_cases hj : j = i <;> simp [hj]
  have hin : ∀ j, (lowMark (dropPass i p s)).input j = (clearPass false i s).input j := fun j => by
    simp only [State.input, hpse]
  refine ⟨?_, ?_, fun j hj => ?_, by rw [hpse]; rfl, fun k => ?_, ?_, ?_, fun h1 h2 h3 h4 => ?_, fun h => ?_,
    fun v hv => ?_, ?_, ?_⟩
  · have honly := (onlyPasses_dropPass false i p s).trans (onlyStore_lowMark (dropPass i p s)).passes
    have hmem : (lowMark (dropPass i p s)).mem = s.mem := by
      obtain ⟨-, -, -, -, -, -, -, fm, -⟩ := hcleared.fields
      rw [gm, dropPass, hstop, State.withCyc_mem, fm]
      rfl
    have := honly.1.1
    rw [hmem] at this
    exact this
  · rw [hin, clearPass, State.withInput_input, if_pos rfl]
    rfl
  · rw [hin, clearPass, State.withInput_input, if_neg hj]
  · have : (lowMark (dropPass i p s)).layer k = (dropLayer p.layer (clearPass false i s)).layer k := by
      simp only [State.layer, hlys, sl]
    rw [this, dropLayer_layer]
    rfl
  · rw [hlys, ss, (dropLayer_counters ..).1]
    rfl
  · rw [hlys, sk, (dropLayer_counters ..).2]
    rfl
  · have hemptied : (dropLayer p.layer (clearPass false i s)).emptied p.track := by
      refine ⟨?_, ?_, ?_, ?_⟩
      · rw [htrack, if_pos rfl]; exact h3
      · rw [htrack, if_pos rfl]; exact h1
      · rw [htrack, if_pos rfl]; exact h2
      · refine Bool.eq_false_iff.2 fun hc => ?_
        obtain ⟨j, q, hj, hq, e⟩ := hon.1 hc
        exact h4 j q hj hq e
    rw [htr, settleTrack_of_emptied hemptied, State.withTrack_track_same, htrack, if_pos rfl]
  · have hnot : ¬ (dropLayer p.layer (clearPass false i s)).emptied p.track := by
      rintro ⟨-, k2, k3, k4⟩
      rw [htrack, if_pos rfl] at k2 k3
      obtain h | h | h := h
      · exact h k2
      · exact h k3
      · rw [hon.2 h] at k4
        cases k4
    rw [htr, settleTrack_of_not hnot, htrack, if_pos rfl]
  · rw [htr, su v hv, htrack, if_neg hv]
  · have hp : (dropPass i p s).pgp = _ := (congrArg State.pgp hstop).trans (sp.trans (dropLayer_pgp hlc))
    rw [lowMark_pgp, State.freeCount, hp]
    simp only [List.length_append, List.length_map]
    rfl
  · rw [gc, dropPass, hstop, State.withCyc_cyc, fc]
    rfl

theorem abortPass_aborted {i : Input} {s : State} {p : Pass} {l : Layer} (hp : s.pass i = some p)
    (hl : s.layer p.layer = some l) (ht : l.track = p.track) :
    Aborted i p l p.track s (abortPass true true i s) := by
  have h := dropPass_aborted (i := i) hl ht
  rw [abortPass_eq hp]
  have he := onlyEvents_emit (passEndedBody i p (s.layer p.layer) s.cyc.len .aborted none 0) (lowMark (dropPass i p s))
  obtain ⟨e1, e2, e3, e4, -⟩ := State.inner_fields he.1
  obtain ⟨rt, rl, ri, -⟩ := he.reads
  refine ⟨?_, (ri i).trans h.input, fun j hj => (ri j).trans (h.inputs j hj), by rw [e4]; exact h.openings,
    fun k => (rl k).trans (h.layers k), by rw [e2]; exact h.serials, by rw [e2]; exact h.parks,
    fun h1 h2 h3 h4 => (rt _).trans (h.emptied h1 h2 h3 h4), fun h1 => (rt _).trans (h.stays h1),
    fun v hv => (rt v).trans (h.tracks v hv), ?_, e1.trans h.cyc⟩
  · rw [he.1, e1, e2, e3, e4]
    exact h.inner
  · rw [e3]
    exact h.pgp

end Sys2Proof.Machine
end

section
/-! PROOFS. LAYER_UNDO executed at once (R38, R39), and which pass of a track is the newest (R75). -/

namespace Sys2Proof.Machine

/-! ## The newest pass (R75) -/

/-- Of the inputs seen so far, `best` names the one whose pass on track `t` has the largest opening order, the first of
equals. -/
def newestOf (s : State) (t : TrackId) (seen : List Input) : Option (Input × Nat) → Prop
  | none => ∀ j ∈ seen, ∀ q, s.pass j = some q → q.track ≠ t
  | some (i, o) => i ∈ seen ∧ ∃ p, s.pass i = some p ∧ p.track = t ∧ p.order = o ∧
      ∀ j ∈ seen, ∀ q, s.pass j = some q → q.track = t → q.order < o ∨ (q.order = o ∧ i ≤ j)

theorem newestOf_newerPass {s : State} {t : TrackId} {seen : List Input} {best : Option (Input × Nat)} {k : Input}
    (h : newestOf s t seen best) (hk : ∀ j ∈ seen, j < k) : newestOf s t (seen ++ [k]) (newerPass s t best k) := by
  have mem : ∀ j, j ∈ seen ++ [k] → j ∈ seen ∨ j = k := fun j hj => by simpa using hj
  unfold newerPass
  cases hp : s.pass k with
  | none =>
    match best, h with
    | none, h =>
      intro j hj q hq
      obtain hj | rfl := mem j hj
      · exact h j hj q hq
      · rw [hp] at hq; cases hq
    | some (i, o), ⟨hi, p, h1, h2, h3, h4⟩ =>
      refine ⟨List.mem_append_left _ hi, p, h1, h2, h3, fun j hj q hq ht => ?_⟩
      obtain hj | rfl := mem j hj
      · exact h4 j hj q hq ht
      · rw [hp] at hq; cases hq
  | some p =>
    by_cases ht : p.track = t
    · simp only [ht, if_true]
      match best, h with
      | none, h =>
        refine ⟨by simp, p, hp, ht, rfl, fun j hj q hq hqt => ?_⟩
        obtain hj | rfl := mem j hj
        · exact absurd hqt (h j hj q hq)
        · rw [hp] at hq
          cases hq
          exact .inr ⟨rfl, le_refl _⟩
      | some (i, o), ⟨hi, r, h1, h2, h3, h4⟩ =>
        by_cases ho : o < p.order
        · simp only [ho, if_true]
          refine ⟨by simp, p, hp, ht, rfl, fun j hj q hq hqt => ?_⟩
          obtain hj | rfl := mem j hj
          · obtain h | ⟨h, -⟩ := h4 j hj q hq hqt
            · exact .inl (h.trans ho)
            · exact .inl (by rwa [h])
          · rw [hp] at hq
            cases hq
            exact .inr ⟨rfl, le_refl _⟩
        · simp only [ho, if_false]
          refine ⟨List.mem_append_left _ hi, r, h1, h2, h3, fun j hj q hq hqt => ?_⟩
          obtain hj | rfl := mem j hj
          · exact h4 j hj q hq hqt
          · rw [hp] at hq
            cases hq
            obtain h | h := Nat.lt_or_eq_of_le (Nat.le_of_not_lt ho)
            · exact .inl h
            · exact .inr ⟨h, (hk i hi).le⟩
    · simp only [ht, if_false]
      match best, h with
      | none, h =>
        intro j hj q hq
        obtain hj | rfl := mem j hj
        · exact h j hj q hq
        · rw [hp] at hq
          cases hq
          exact ht
      | some (i, o), ⟨hi, r, h1, h2, h3, h4⟩ =>
        refine ⟨List.mem_append_left _ hi, r, h1, h2, h3, fun j hj q hq hqt => ?_⟩
        obtain hj | rfl := mem j hj
        · exact h4 j hj q hq hqt
        · rw [hp] at hq
          cases hq
          exact absurd hqt ht

theorem newestOf_foldl {s : State} {t : TrackId} : ∀ (is seen : List Input) (best : Option (Input × Nat)),
    (seen ++ is).Pairwise (· < ·) → newestOf s t seen best →
      newestOf s t (seen ++ is) (is.foldl (newerPass s t) best)
  | [], seen, best, _, h => by simpa using h
  | k :: is, seen, best, hs, h => by
    have hk : ∀ j ∈ seen, j < k := fun j hj => (List.pairwise_append.1 hs).2.2 j hj k (by simp)
    have := newestOf_foldl is (seen ++ [k]) (newerPass s t best k) (by simpa using hs) (newestOf_newerPass h hk)
    simpa using this

theorem newestOf_all (s : State) (t : TrackId) : newestOf s t allInputs (allInputs.foldl (newerPass s t) none) :=
  newestOf_foldl allInputs [] none (by decide) (fun j hj => by cases hj)

theorem newestPass_none (s : State) (t : TrackId) : s.newestPass t = none ↔ ∀ i p, s.pass i = some p → p.track ≠ t := by
  have h := newestOf_all s t
  unfold State.newestPass
  cases hb : allInputs.foldl (newerPass s t) none with
  | none =>
    rw [hb] at h
    exact ⟨fun _ i p hp => h i (mem_allInputs i) p hp, fun _ => rfl⟩
  | some b =>
    rw [hb] at h
    obtain ⟨i, o⟩ := b
    obtain ⟨-, p, hp, ht, -⟩ := h
    exact ⟨fun e => by simp at e, fun hn => absurd ht (hn i p hp)⟩

/-- The newest pass of a track: the largest opening order, the lowest input of equals. -/
theorem newestPass_some (s : State) (t : TrackId) (i : Input) : s.newestPass t = some i ↔
    ∃ p, s.pass i = some p ∧ p.track = t ∧
      ∀ j q, s.pass j = some q → q.track = t → q.order < p.order ∨ (q.order = p.order ∧ i ≤ j) := by
  have found : ∀ k, s.newestPass t = some k → ∃ p, s.pass k = some p ∧ p.track = t ∧
      ∀ j q, s.pass j = some q → q.track = t → q.order < p.order ∨ (q.order = p.order ∧ k ≤ j) := by
    intro k hk
    have h := newestOf_all s t
    obtain ⟨⟨k', o⟩, hb, rfl⟩ := Option.map_eq_some_iff.1 hk
    rw [hb] at h
    obtain ⟨-, p, hp, ht, rfl, hmax⟩ := h
    exact ⟨p, hp, ht, fun j => hmax j (mem_allInputs j)⟩
  refine ⟨found i, fun ⟨p, hp, ht, hmax⟩ => ?_⟩
  cases hk : s.newestPass t with
  | none => exact absurd ht ((newestPass_none s t).1 hk i p hp)
  | some k =>
    obtain ⟨q, hq, hqt, hqmax⟩ := found k hk
    have hik : i ≤ k ∧ k ≤ i := by
      obtain h1 | ⟨e1, h1⟩ := hmax k q hq hqt <;> obtain h2 | ⟨e2, h2⟩ := hqmax i p hp ht
      · omega
      · omega
      · omega
      · exact ⟨h1, h2⟩
    rw [le_antisymm hik.1 hik.2]

/-! ## LAYER_UNDO -/

theorem taken_newestPass (lk : Link) (e : Bool) (s : State) (t : TrackId) :
    (taken lk e s).newestPass t = s.newestPass t := by
  have hp : (taken lk e s).pass = s.pass := funext (taken_reads lk e s).2.2.2
  have : newerPass (taken lk e s) t = newerPass s t := by
    funext best i
    simp only [newerPass, hp]
  simp only [State.newestPass, this]

/-- An undo outside the modes that wait is timed at once (R95, R96). -/
theorem State.timing_undo {s : State} {lk : Link} {t : TrackId} {mode : Quantize}
    (h : mode = .now ∨ s.cyc.state ≠ .running) : s.timing lk (.layerUndo t) mode = .atOnce 0 := by
  unfold State.timing
  split
  · next ha _ => cases ha
  · next hr =>
    obtain rfl | h := h
    · rfl
    · exact absurd hr h
  · rfl

/-- PASS_ENDED of an abort reaches a station that hears it with room for it and for the pool's event before it. -/
theorem abortPass_heard {i : Input} {s : State} {p : Pass} (hp : s.pass i = some p) {j : Link}
    (h : s.hears j .passEnded 2 = true) :
    ∃ e ∈ ((abortPass true true i s).link j).events, e.info = (abortPass true true i s).info ∧
      e.body = passEndedBody i p (s.layer p.layer) s.cyc.len .aborted none 0 := by
  have adds1 : adds 1 (fun _ => True) s (lowMark (dropPass i p s)) :=
    (adds_dropPass false i p s).after (adds_lowMark (fun _ _ => trivial) _)
  have hh := adds1.hears (m := 1) (by simp) (n := 1) h
  have hev := emitAt_heard hh (lowMark (dropPass i p s)).info
    (passEndedBody i p (s.layer p.layer) s.cyc.len .aborted none 0) rfl rfl rfl
  rw [abortPass_eq hp]
  refine ⟨⟨passEndedBody i p (s.layer p.layer) s.cyc.len .aborted none 0, (lowMark (dropPass i p s)).info,
    ((lowMark (dropPass i p s)).station j).missed, false⟩, ?_, ?_, rfl⟩
  · rw [emit, hev]
    exact List.mem_append_right _ (List.mem_singleton.2 rfl)
  · exact (State.info_congr (State.inner_fields (onlyEvents_emit _ _).1).1).symm

/-- Parking the top layer where the redo list has room and the park counter is not used up (R39, R31). -/
theorem parkLayer_top {s : State} {t : TrackId} {rest : List LayerId} {top : LayerId} {l : Layer}
    (hs : (s.track t).stack = rest ++ [top]) (hn : top ∉ rest) (hl : s.layer top = some l) (ht : l.track = t)
    (hp : s.lys.parks < 4294967295) :
    parkLayer top s =
      let y := (s.withTrack t { s.track t with stack := rest, redo := (s.track t).redo ++ [top] }).withLayer top
        (some { l with state := .parked, stamp := some s.lys.parks })
      { y with lys.parks := s.lys.parks + 1 } := by
  have hf : (s.track t).stack.filter (· ≠ top) = rest := by
    rw [hs, List.filter_append]
    have : rest.filter (· ≠ top) = rest := List.filter_eq_self.2 fun x hx => by
      have : x ≠ top := fun e => hn (e ▸ hx)
      simpa using this
    rw [this]
    simp
  subst ht
  unfold parkLayer
  rw [if_neg (by omega)]
  simp only [hl]
  rw [hf]
  rfl

/-- Settles O27: the abort through `Aborted`, the park through `parkLayer_top`, the newest pass through `newestOf`. -/
theorem undoParksTheTopLayer : Obligations.UndoParksTheTopLayer := by
  refine ⟨?_, fun s t => ⟨newestPass_some s t, newestPass_none s t⟩⟩
  intro s lk tag track quantize mode t h hold ht hq hn hm result
  have hacc : Accepted s lk tag (.layerUndo lk tag track quantize) (.layerUndo t) mode :=
    ⟨h, hold, by simp only [quantizedOf, ht, hq], hn, rfl⟩
  have hexec : ∀ {f : State → State} {rc : ReplyCode}, execUndo t (taken lk true s) = (f (taken lk true s), rc) →
      result = .next (s.served lk 0x08 tag rc f) := fun hx => exec_atOnce (mode := mode) hacc (State.timing_undo hm) hx
  have hnew := taken_newestPass lk true s t
  obtain ⟨xtrack, xlayer, xinput, xpass⟩ := taken_reads lk true s
  have habort : ∀ i, s.newestPass t = some i →
      result = .next (s.served lk 0x08 tag .done fun x => abortPass true true i x) := fun i hi =>
    hexec (by simp only [execUndo, hnew, hi])
  refine ⟨habort, fun i p l hi hp hl hlt hredo => ?_, fun hnone hstack => ?_, fun rest top l hnone hstack htop hl hlt => ?_⟩
  · intro stack
    have hpx : (taken lk true s).pass i = some p := (xpass i).trans hp
    have hpt : p.track = t := by
      obtain ⟨q, hq, hqt, -⟩ := (newestPass_some s t i).1 hi
      rw [hp] at hq
      cases hq
      exact hqt
    have hab := abortPass_aborted hpx ((xlayer p.layer).trans hl) (hlt.trans hpt.symm)
    rw [hpt] at hab
    replace hab := hab.of_inner (taken_inner lk true s)
    have hheard : ∀ j, s.hears j .passEnded 2 = true →
        ∃ e ∈ ((abortPass true true i (taken lk true s)).link j).events,
          e.info = (abortPass true true i (taken lk true s)).info ∧
            e.body = passEndedBody i p (some l) s.cyc.len .aborted none 0 := by
      intro j hj
      have hx : (taken lk true s).hears j .passEnded 2 = true :=
        (adds_taken (P := fun _ => True) (fun _ => trivial) lk true s).hears (m := 0) (by simp) (by simpa using hj)
      have := abortPass_heard hpx hx
      rwa [xlayer, hl, (taken_fields lk true s).1] at this
    have hruns : (abortPass true true i (taken lk true s)).linkRuns lk = true := by
      rw [(adds_abortPass (P := fun _ => True) (fun _ _ => trivial) i (taken lk true s)).runs, taken_linkRuns]
      exact State.ready_linkRuns h
    refine ⟨_, habort i hi, ?_⟩
    have hlast := served_getLast (code := 0x08) (tag := tag) (rc := .done) (p := .none)
      (f := fun x => abortPass true true i x) hruns
    have hserved : s.served lk 0x08 tag .done (fun x => abortPass true true i x) =
        pushReply lk (s.firstReplyOf 0x08 tag .done .none) (abortPass true true i (taken lk true s)) := rfl
    rw [hserved] at hlast ⊢
    generalize abortPass true true i (taken lk true s) = u at hab hheard hlast
    generalize hr : s.firstReplyOf 0x08 tag .done .none = r at hlast ⊢
    have hinner := pushReply_inner lk r u
    obtain ⟨fcyc, flys, fpgp, fpse, -⟩ := State.inner_fields hinner
    have ftrack : ∀ v, (pushReply lk r u).track v = u.track v := fun v => by simp only [State.track, flys]
    have flayer : ∀ k, (pushReply lk r u).layer k = u.layer k := fun k => by simp only [State.layer, flys]
    have finput : ∀ k, (pushReply lk r u).input k = u.input k := fun k => by simp only [State.input, fpse]
    have hredo' : ((s.track t).without p.layer).redo = (s.track t).redo :=
      List.filter_eq_self.2 fun x hx => by
        have : x ≠ p.layer := fun e => hredo (e ▸ hx)
        simpa using this
    have hwithout : (s.track t).without p.layer = { s.track t with stack := stack } := by
      have : (s.track t).without p.layer = { s.track t with
        stack := stack, redo := ((s.track t).without p.layer).redo } := rfl
      rw [this, hredo']
    refine ⟨?_, ?_, fun j hj => ?_, ?_, ?_, fun k hk => ?_, ?_, ?_, fun hs => ?_, fun h1 h2 h3 h4 => ?_, fun v hv => ?_,
      ?_, fun hk hms => ?_, fun hor => ?_, fun j hj => ?_, r, hlast, ?_⟩
    · rw [hinner, fcyc, flys, fpgp, fpse, hab.inner]
    · rw [finput, hab.input]
    · rw [finput, hab.inputs j hj]
    · rw [fpse, hab.openings]
    · rw [flayer, hab.layers, if_pos rfl]
    · rw [flayer, hab.layers, if_neg hk]
    · rw [flys, hab.serials]
    · rw [flys, hab.parks]
    · rw [ftrack, hab.stays, hwithout]
      rwa [hredo']
    · rw [ftrack, hab.emptied h1 (hredo'.trans h2) h3 h4, hwithout]
      simp only [h1]
    · rw [ftrack, hab.tracks v hv]
    · rw [fpgp]
      exact hab.pgp
    · rw [fcyc, hab.cyc, if_pos ⟨hk, hms⟩]
      rfl
    · rw [fcyc, hab.cyc, if_neg fun h => hor.elim (fun h' => h' h.1) fun h' => h' h.2]
    · obtain ⟨e, he, hinfo, hbody⟩ := hheard j hj
      refine ⟨e, by rw [pushReply_events]; exact he, by rw [hinfo]; exact (State.info_congr fcyc).symm, ?_⟩
      rw [hbody, passEndedBody, hpt]
      by_cases hf : p.kind = .fixed <;> by_cases hk : p.kind = .measure <;> simp [hf, hk]
    · rw [← hr]
      exact ⟨rfl, rfl, rfl⟩
  · exact hexec (f := id) (by simp only [execUndo, hnew, hnone, xtrack, hstack, List.getLast?_nil, id])
  · have hx : (s.track t).stack.getLast? = some top := by rw [hstack, List.getLast?_concat]
    refine ⟨fun head tl k hr htl hk hpin => hexec (f := id) ?_, fun hr hsrc hparks => hexec ?_⟩
    · have hfull : (decide (12 ≤ (s.track t).redo.length) &&
          !((taken lk true s).havingPin true ((s.track t).redo.take 1)).isEmpty) = true := by
        simp [hr, htl, State.havingPin, xlayer, hk, hpin]
      simp only [execUndo, hnew, hnone, hx, xtrack, hfull, if_true, id]
    · have hroom : ¬ 12 ≤ (s.track t).redo.length := by omega
      have hsrc' : (taken lk true s).isSource top = false := by
        simpa only [State.isSource, (taken_fields lk true s).2.2.2.2.2.2.1] using hsrc
      have hpark := parkLayer_top (s := taken lk true s) (by rw [xtrack, hstack]) htop ((xlayer top).trans hl) hlt
        (by rw [(taken_fields lk true s).2.1]; exact hparks)
      rw [xtrack, (taken_fields lk true s).2.1] at hpark
      simp only [execUndo, hnew, hnone, hx, xtrack, hroom, makeRedoRoom, hsrc', decide_false, Bool.false_and,
        Bool.false_eq_true, if_false]
      exact congrArg (·, ReplyCode.done) hpark

end Sys2Proof.Machine
end

section
/-! PROOFS. PASS_CLOSE (R12, R82, R85 to R89): the trim, the end of a pass, and the three kinds of close. -/

namespace Sys2Proof.Machine

/-! ## Trims and ends -/

theorem State.track_congr {s u : State} (h : u.lys = s.lys) (t : TrackId) : u.track t = s.track t := by
  simp only [State.track, h]

theorem State.layer_congr {s u : State} (h : u.lys = s.lys) (id : LayerId) : u.layer id = s.layer id := by
  simp only [State.layer, h]

/-- A layer cut down to `n` written blocks: its count, and the pages of the slots it still touches (R63). -/
def Layer.trimmed (l : Layer) (n : Nat) : Layer :=
  { l with written := n, map := l.map.filter fun c => slotKept l.start n l.span c.1 }

/-- What a trim leaves: the layer cut down, the pool aside everything else as it was (R63). -/
theorem trimTo_frame {id : LayerId} {n : Nat} {s : State} {l : Layer} (hl : s.layer id = some l) (hn : n < l.written) :
    (trimTo id n s).lys = (s.withLayer id (some (l.trimmed n))).lys ∧ (trimTo id n s).pse = s.pse ∧
      (trimTo id n s).cyc = s.cyc ∧ (trimTo id n s).mem = s.mem := by
  have hlys : (trimTo id n s).lys = (s.withLayer id (some (l.trimmed n))).lys := by
    simp only [trimTo, hl, if_pos hn, trimLayer, lowMark_lys]
    rfl
  obtain ⟨hc, hp, -, -, -, -, -, hm, -⟩ := (onlyStore_trimTo id n s).fields
  exact ⟨hlys, hp, hc, hm⟩

/-- What the end of a pass COMPLETE leaves and changes (R83, R33). -/
structure Completed (i : Input) (p : Pass) (l : Layer) (spill : Block) (s u : State) : Prop where
  pass : u.pass i = none
  cyc : u.cyc = s.cyc
  lys : u.lys = (s.withLayer p.layer (some { l with state := .live })).lys
  mem : u.mem = (storeBlock p.layer p.start (seamBlend (layerBlock s p.layer p.start) spill) s).mem

theorem completePass_completed {i : Input} {s : State} {p : Pass} {l : Layer} (hp : s.pass i = some p)
    (hl : s.layer p.layer = some l) (spill : Block) : Completed i p l spill s (completePass false spill i s) := by
  have hstored := storeBlock_mem p.layer p.start (seamBlend (layerBlock s p.layer p.start) spill) s
  obtain ⟨hstored, -⟩ := hstored
  simp only [completePass, hp]
  generalize hx : storeBlock p.layer p.start (seamBlend (layerBlock s p.layer p.start) spill) s = x at hstored ⊢
  have hlx : x.layer p.layer = some l := by rw [hstored]; exact hl
  rw [mapLayer_of_some hlx]
  generalize hy : clearPass false i (x.withLayer p.layer (some { l with state := .live })) = y
  obtain ⟨he, -⟩ := onlyEvents_emitAt (y.infoOf false) (passEndedBody i p (y.layer p.layer) y.cyc.len .complete none
    (((y.layer p.layer).map (·.written)).getD 0)) y
  obtain ⟨ec, el, -, ep, -, -, -, -, -, em, -⟩ := State.inner_fields he
  refine ⟨?_, ?_, ?_, ?_⟩
  · rw [State.pass_congr ep, ← hy, clearPass_pass]
  · rw [ec, ← hy, hstored]
    rfl
  · rw [el, ← hy, hstored]
    rfl
  · rw [em, ← hy, ← hx]
    rfl

/-- A block stored in a slot that holds a page, and the block read from there. -/
theorem storeBlock_of_page {id : LayerId} {pos : Nat} {s : State} {l : Layer} {pg : Page} (hl : s.layer id = some l)
    (hpg : slotPage l.map (pos / 256) = some pg) (b : Block) :
    storeBlock id pos b s = s.withMem (writeBlock s.mem pg (pos % 256) b) ∧
      layerBlock s id pos = readBlock s.mem pg (pos % 256) := by
  simp only [storeBlock, layerBlock, storedBlock, hl, hpg, Option.bind_some, and_self]

/-! ## The timing of a close (R97) -/

theorem State.timing_close_rest {s : State} (h : s.cyc.state ≠ .running) (lk : Link) (i : Input) (mode : Quantize) :
    s.timing lk (.passClose i) mode = .atOnce 0 := by
  unfold State.timing
  split
  · next ha _ => cases ha
  · next hr => exact absurd hr h
  · rfl

theorem State.timing_close_opening {s : State} {i : Input} {p : Pass} {pos len : Nat} {lk : Link}
    (hr : s.cyc.state = .running) (hp : s.pass i = some p) (hk : p.kind = .opening) (hpos : s.cyc.pos = some pos)
    (hlen : s.cyc.len = some len) (hg : pos ≤ (s.station lk).grace) (mode : Quantize) :
    s.timing lk (.passClose i) mode = .atOnce pos := by
  simp [State.timing, hr, State.timingMode, hp, hk, State.period, hpos, hlen, hg]

/-! ## The marks' note -/

/-- The timeline after the marks of a block: only the note of the withheld ones is new (R18). -/
theorem emitMarks_cyc_eq (s : State) : (emitMarks s).cyc =
    if s.cyc.onBeat && s.leavesRunning then { s.cyc with withheld := true } else s.cyc := by
  unfold emitMarks
  cases s.cyc.onBeat <;> cases s.leavesRunning <;> simp [(State.inner_fields (onlyEvents_sendBlockMarks s).1).1]

theorem emitMarks_cyc_congr {s u : State} (hc : u.cyc = s.cyc) (ha : u.aqu = s.aqu) (ht : u.tmc = s.tmc) :
    (emitMarks u).cyc = (emitMarks s).cyc := by
  rw [emitMarks_cyc_eq, emitMarks_cyc_eq, hc, State.leavesRunning_congr ha ht (by rw [hc])]

/-! ## The three kinds of close -/

theorem Pass.closeFixed_false {p : Pass} (hs : p.state = .writing) (hc : p.cut = none)
    (h : p.kind = .fixed ∨ p.close = none) : p.closeFixed = false := by
  obtain h | h := h <;> simp [Pass.closeFixed, hs, hc, h]

/-- The close of a measuring pass, executed at once (R12, R82). -/
theorem execClose_measure {s : State} {i : Input} {p : Pass} (hp : s.pass i = some p) (hk : p.kind = .measure)
    (hf : p.closeFixed = false) (hm : s.cyc.state = .measuring) (d : Nat) :
    execClose i d s = (closeMeasure i p s, .done) := by
  simp [execClose, hp, hf, hk, hm]

theorem execClose_opening {s : State} {i : Input} {p : Pass} (hp : s.pass i = some p) (hk : p.kind = .opening)
    (hf : p.closeFixed = false) (d : Nat) : execClose i d s = (closeOpening i p d s, .done) := by
  simp [execClose, hp, hf, hk]

theorem execClose_fixed {s : State} {i : Input} {p : Pass} (hp : s.pass i = some p) (hk : p.kind = .fixed)
    (hf : p.closeFixed = false) (d : Nat) : execClose i d s = (cutPass .closed true i s, .done) := by
  simp [execClose, hp, hf, hk]

theorem execClose_closed {s : State} {i : Input} {p : Pass} (hp : s.pass i = some p) (hf : p.closeFixed = true)
    (d : Nat) : execClose i d s = (s, .done) := by
  simp [execClose, hp, hf]

/-- The close of an OPEN pass, by its whole cycles and its distance from the boundary (R85, R86). -/
theorem closeOpening_eq {s : State} {i : Input} {p : Pass} {l : Layer} {len : Nat} (hp : s.pass i = some p)
    (hl : s.layer p.layer = some l) (hlen : s.cyc.len = some len) (d : Nat) :
    closeOpening i p d s =
      let k := s.wholeCycles p
      let x := (s.withTrack p.track { s.track p.track with state := .looping, mult := some k }).withLayer p.layer
        (some { l with length := some (k * len) })
      if k = 0 then s.withPass i (some { p with close := some len })
      else if d = 0 then x.withPass i (some { p with state := .spillWait, close := some (k * len), spillReady := false })
      else completePass false ((s.input i).ring.getD (d - 1) silence) i
        (mapPass i (fun p => { p with close := some (k * len) }) (trimTo p.layer (k * len) x)) := by
  simp only [closeOpening, hlen, Option.getD_some, closeAtBoundary, awaitSpill, mapPass_of_some hp]
  have hx : ∀ k, (fixLength p k len s).pass i = some p := fun k => by rw [fixLength_of_some hl]; exact hp
  simp only [mapPass_of_some (hx _)]
  simp only [fixLength_of_some hl]

/-- The trim and the end of a pass past its close (R86, R87): what the last case of a close leaves. -/
theorem trimComplete {i : Input} {p : Pass} {l : Layer} {n e : Nat} {x : State} (hp : x.pass i = some p)
    (hl : x.layer p.layer = some l) (hn : n < l.written) (spill : Block) :
    let u := completePass false spill i (mapPass i (fun p => { p with close := some e }) (trimTo p.layer n x))
    u.pass i = none ∧ u.cyc = x.cyc ∧ u.track p.track = x.track p.track ∧
      u.layer p.layer = some { l.trimmed n with state := .live } ∧
      ∀ pg, slotPage (l.trimmed n).map (p.start / 256) = some pg →
        u.mem = writeBlock x.mem pg (p.start % 256) (seamBlend (readBlock x.mem pg (p.start % 256)) spill) := by
  intro u
  obtain ⟨tl, tp, tc, tm⟩ := trimTo_frame hl hn
  have hpt : (trimTo p.layer n x).pass i = some p := (State.pass_congr tp i).trans hp
  have hlt : (trimTo p.layer n x).layer p.layer = some (l.trimmed n) := by
    rw [State.layer_congr tl, State.withLayer_layer_same]
  have hu : u = completePass false spill i ((trimTo p.layer n x).withPass i (some { p with close := some e })) := by
    simp only [u, mapPass_of_some hpt]
  have hcompleted : Completed i { p with close := some e } (l.trimmed n) spill
      ((trimTo p.layer n x).withPass i (some { p with close := some e })) u := by
    rw [hu]
    exact completePass_completed (p := { p with close := some e }) (State.withPass_pass_same _ _ _) hlt spill
  refine ⟨hcompleted.pass, hcompleted.cyc.trans tc, ?_, ?_, fun pg hpg => ?_⟩
  · rw [State.track_congr hcompleted.lys]
    exact State.track_congr tl p.track
  · rw [State.layer_congr hcompleted.lys]
    exact State.withLayer_layer_same ..
  · have hlw : ((trimTo p.layer n x).withPass i (some { p with close := some e })).layer p.layer = some (l.trimmed n) := hlt
    rw [hcompleted.mem, (storeBlock_of_page hlw hpg _).1, (storeBlock_of_page hlw hpg []).2]
    simp only [State.withMem_mem, State.withPass_mem, tm]

/-- A FIXED pass cut with nothing left to copy and something written: its layer is LIVE (R88). -/
theorem cutPass_fixed_written {i : Input} {s : State} {p : Pass} {l : Layer} (hp : s.pass i = some p)
    (hl : s.layer p.layer = some l) (hk : p.kind = .fixed) (hc : p.cut = none) (hb : p.backfill = 0)
    (hn : 1 ≤ l.written) (cause : CutCause) :
    (cutPass cause true i s).pass i = none ∧ (cutPass cause true i s).cyc = s.cyc ∧
      (cutPass cause true i s).lys = (s.withLayer p.layer (some { l with state := .live })).lys ∧
      (cutPass cause true i s).pgp = s.pgp := by
  have hcut : cutPass cause true i s = finishCut cause i s := by
    simp only [cutPass, hp, hc, fixAtCut, hk, hb, Option.isSome_none, Bool.false_eq_true, if_false, Nat.lt_irrefl]
  have hramp : ∀ x : State, rampEnds p.layer x = x.withMem (rampEnds p.layer x).mem := by
    intro x
    unfold rampEnds
    split
    · rfl
    · split
      · exact (storeBlock_mem ..).1
      · rw [(storeBlock_mem ..).1, (storeBlock_mem _ _ _ x).1]
        rfl
  have hn0 : ¬ l.written = 0 := by omega
  rw [hcut]
  simp only [finishCut, hp, hl, Option.map_some, Option.getD_some, if_neg hn0]
  rw [hramp]
  have hlc : ((clearPass false i s).withMem (rampEnds p.layer (clearPass false i s)).mem).layer p.layer = some l := hl
  rw [mapLayer_of_some hlc]
  obtain ⟨ec, el, eg, ep, -⟩ := State.inner_fields (onlyEvents_emit (passEndedBody i p (some l) s.cyc.len .cut (some cause)
    l.written) (((clearPass false i s).withMem (rampEnds p.layer (clearPass false i s)).mem).withLayer p.layer
      (some { l with state := .live }))).1
  refine ⟨?_, ec, el, eg⟩
  rw [State.pass_congr ep]
  exact clearPass_pass false i s

/-! ## The obligation -/

/-- An accepted pass request executed at once and answered DONE: the state after its reply (R99). -/
theorem exec_atOnce_done {s u : State} {lk : Link} {tag : Byte} {c : Instr} {a : Action} {mode : Quantize} {d : Nat}
    (h : Accepted s lk tag c a mode) (ht : s.timing lk a mode = .atOnce d)
    (hx : execAction a d (taken lk true s) = (u, .done)) (hu : onlyPasses (taken lk true s) u) :
    ∃ t, exec c s = .next t ∧ (t.cyc = u.cyc ∧ t.lys = u.lys ∧ t.pgp = u.pgp ∧ t.pse = u.pse ∧ t.mem = u.mem) ∧
      ∃ r ∈ (t.link lk).replies.getLast?, r.request = a.code ∧ r.tag = some tag ∧ r.code = .done := by
  have hr : u.linkRuns lk = true :=
    (hu.1.linkRuns lk).trans ((taken_linkRuns lk lk true s).trans (State.ready_linkRuns h.ready))
  refine ⟨_, exec_atOnce (f := fun _ => u) h ht hx, ?_, _, served_getLast hr, rfl, rfl, rfl⟩
  obtain ⟨hc, hl, hg, hp, -, -, -, -, -, hm, -⟩ := pushReply_fields lk (s.firstReplyOf a.code tag .done .none) u
  exact ⟨hc, hl, hg, hp, hm⟩

/-- A close that is accepted: the pass is open (R82). -/
theorem accepted_close {s : State} {lk : Link} {tag input quantize : Byte} {mode : Quantize} {i : Input} {p : Pass}
    (h : s.ready lk (.passClose lk tag input quantize) = true) (hold : s.inHold = false) (hi : inputArg input = some i)
    (hq : quantizeArg quantize = some mode) (hn : s.pendingSame lk (.passClose i) = none) (hp : s.pass i = some p) :
    Accepted s lk tag (.passClose lk tag input quantize) (.passClose i) mode :=
  ⟨h, hold, by simp only [quantizedOf, hi, hq], hn, (State.takingCheck_close s i).2 (by simp [hp])⟩

/-- Settles O24: the measuring pass by `closeMeasure_eq`, the OPEN pass by `closeOpening_eq`, the FIXED pass by its cut. -/
theorem passCloseFixesTheCycle : Obligations.PassCloseFixesTheCycle := by
  refine ⟨?_, ?_, ?_⟩
  · intro s lk tag input quantize mode i p l n0 h hold hi hq hn hp hk hs hc hcl hm hn0 hl m len placed
    have hacc := accepted_close h hold hi hq hn hp
    have htime := State.timing_close_rest (s := s) (by rw [hm]; decide) lk i mode
    obtain ⟨xcyc, xlys, -, xpse, xaqu, -, -, xtmc, -⟩ := taken_fields lk true s
    obtain ⟨xtrack, xlayer, xinput, xpass⟩ := taken_reads lk true s
    have hmeas : s.cyc.measured = m := by simp only [Cyc.measured, hn0, Option.map_some, Option.getD_some, m]
    have hplaced : placedMeasure p l (taken lk true s) = placed (taken lk true s) := by
      simp only [placedMeasure, placed, Cyc.placeMeasured, xcyc, xtrack, hmeas, len]
    have hexec : execAction (.passClose i) 0 (taken lk true s) = (closeMeasure i p (taken lk true s), .done) :=
      execClose_measure ((xpass i).trans hp) hk (Pass.closeFixed_false hs hc (.inr hcl)) (by rw [xcyc]; exact hm) 0
    have hclose := closeMeasure_eq ((xpass i).trans hp) ((xlayer p.layer).trans hl)
    simp only [hplaced, xcyc, hmeas] at hclose
    change _ = if len < m then _ else if len = m then _ else _ at hclose
    refine ⟨fun hlt => ?_, fun heq => ?_, fun hlt hw => ?_⟩
    · rw [if_neg (by omega), if_neg (by omega)] at hclose
      exact exec_atOnce (f := fun x => _) hacc htime (by rw [hexec, hclose])
    · rw [if_neg (by omega), if_pos heq.symm] at hclose
      exact exec_atOnce (f := fun x => _) hacc htime (by rw [hexec, hclose])
    · rw [if_pos hlt] at hclose
      have hpx : (placed (taken lk true s)).pass i = some p := by
        simp only [placed, State.withLayer_pass, State.withTrack_pass, (emitMarks_reads _).2.2.2, State.withCyc_pass,
          xpass, hp]
      have hlx : (placed (taken lk true s)).layer p.layer = some { l with length := some (1 * len) } :=
        State.withLayer_layer_same ..
      have hcx : (placed (taken lk true s)).cyc = (placed s).cyc :=
        emitMarks_cyc_congr (by simp only [State.withCyc_cyc, xcyc]) xaqu xtmc
      have htx : (placed (taken lk true s)).track p.track = (placed s).track p.track := by
        simp only [placed, State.withLayer_track, State.withTrack_track_same]
      obtain ⟨upass, ucyc, utrack, ulayer, -⟩ := trimComplete (i := i) (n := len) (e := len) hpx hlx
        (hw ▸ hlt) (layerBlock (placed (taken lk true s)) p.layer len)
      rw [← hclose] at upass ucyc utrack ulayer
      obtain ⟨t, ht, ⟨tcyc, tlys, -, tpse, -⟩, hr⟩ := exec_atOnce_done hacc htime hexec
        (onlyPasses_closeMeasure i p (taken lk true s))
      refine ⟨t, ht, (State.pass_congr tpse i).trans upass, (tcyc.trans ucyc).trans hcx, ?_, ?_, hr⟩
      · exact (State.track_congr tlys _).trans (utrack.trans htx)
      · exact (State.layer_congr tlys _).trans ulayer
  · intro s lk tag input quantize mode i p l pos len a h hold hi hq hn hp hk hs hc hcl hr hpos hlen hg ha hl k looping
    have hacc := accepted_close h hold hi hq hn hp
    have htime := State.timing_close_opening (lk := lk) hr hp hk hpos hlen hg mode
    obtain ⟨xcyc, xlys, -, xpse, -, -, -, -, -, xmem, -⟩ := taken_fields lk true s
    obtain ⟨xtrack, xlayer, xinput, xpass⟩ := taken_reads lk true s
    have hexec : execAction (.passClose i) pos (taken lk true s) = (closeOpening i p pos (taken lk true s), .done) :=
      execClose_opening ((xpass i).trans hp) hk (Pass.closeFixed_false hs hc (.inr hcl)) pos
    have hclose := closeOpening_eq ((xpass i).trans hp) ((xlayer p.layer).trans hl)
      ((congrArg Cyc.len xcyc).trans hlen) pos
    have hwhole : (taken lk true s).wholeCycles p = k := by
      simp only [State.wholeCycles, xcyc, xtrack, ha, Option.getD_some, k, cyclesSince]
    have hlooping : ((taken lk true s).withTrack p.track
        { s.track p.track with state := .looping, mult := some k }).withLayer p.layer
        (some { l with length := some (k * len) }) = looping (taken lk true s) := rfl
    simp only [hwhole, xtrack, xinput, hlooping] at hclose
    refine ⟨fun hk0 => ?_, fun hk1 hpos0 => ?_, fun pg hk1 hpos1 hw hpg => ?_⟩
    · rw [if_pos hk0] at hclose
      exact exec_atOnce (f := fun x => _) hacc htime (by rw [hexec, hclose])
    · rw [if_neg (by omega), if_pos hpos0] at hclose
      exact exec_atOnce (f := fun x => _) hacc htime (by rw [hexec, hclose])
    · rw [if_neg (by omega), if_neg (by omega)] at hclose
      have hpx : (looping (taken lk true s)).pass i = some p := (xpass i).trans hp
      have hlx : (looping (taken lk true s)).layer p.layer = some { l with length := some (k * len) } :=
        State.withLayer_layer_same ..
      have htx : (looping (taken lk true s)).track p.track = (looping s).track p.track := by
        simp only [looping, State.withLayer_track, State.withTrack_track_same]
      obtain ⟨upass, ucyc, utrack, ulayer, umem⟩ := trimComplete (i := i) (n := k * len) (e := k * len) hpx hlx hw
        ((s.input i).ring.getD (pos - 1) silence)
      have umem := umem pg hpg
      rw [← hclose] at upass ucyc utrack ulayer umem
      obtain ⟨t, ht, ⟨tcyc, tlys, -, tpse, tmem⟩, hr⟩ := exec_atOnce_done hacc htime hexec
        (onlyPasses_closeOpening i p pos (taken lk true s))
      refine ⟨t, ht, (State.pass_congr tpse i).trans upass, (tcyc.trans ucyc).trans xcyc, ?_, ?_, ?_, hr⟩
      · exact (State.track_congr tlys _).trans (utrack.trans htx)
      · exact (State.layer_congr tlys _).trans ulayer
      · rw [tmem, umem, show (looping (taken lk true s)).mem = s.mem from xmem]
  · intro s lk tag input quantize mode i p l h hold hi hq hn hp htime hl
    have hacc := accepted_close h hold hi hq hn hp
    obtain ⟨xcyc, xlys, xpgp, xpse, -⟩ := taken_fields lk true s
    obtain ⟨-, xlayer, -, xpass⟩ := taken_reads lk true s
    refine ⟨fun hk hs hc hb => ?_, fun hk hs hc hb hw => ?_, fun hfixed => ?_⟩
    · have hexec : execAction (.passClose i) 0 (taken lk true s) = (cutPass .closed true i (taken lk true s), .done) :=
        execClose_fixed ((xpass i).trans hp) hk (Pass.closeFixed_false hs hc (.inl hk)) 0
      refine exec_atOnce (f := fun x => _) hacc htime ?_
      rw [hexec]
      simp [cutPass, xpass, hp, hc, fixAtCut, hk, hb]
    · have hexec : execAction (.passClose i) 0 (taken lk true s) = (cutPass .closed true i (taken lk true s), .done) :=
        execClose_fixed ((xpass i).trans hp) hk (Pass.closeFixed_false hs hc (.inl hk)) 0
      obtain ⟨upass, ucyc, ulys, upgp⟩ := cutPass_fixed_written ((xpass i).trans hp) ((xlayer p.layer).trans hl) hk hc hb hw
        .closed
      obtain ⟨t, ht, ⟨tcyc, tlys, tpgp, tpse, -⟩, hr⟩ := exec_atOnce_done hacc htime hexec
        (onlyPasses_cutPass .closed true i (taken lk true s))
      have hlys : t.lys = (s.withLayer p.layer (some { l with state := .live })).lys := by
        rw [tlys, ulys]
        simp only [State.withLayer, xlys]
      refine ⟨t, ht, (State.pass_congr tpse i).trans upass, (tcyc.trans ucyc).trans xcyc, ?_, (tpgp.trans upgp).trans xpgp,
        fun u => ?_, fun id hid => ?_, hr⟩
      · exact (State.layer_congr hlys _).trans (State.withLayer_layer_same ..)
      · exact State.track_congr (u := t) (s := s.withLayer p.layer _) hlys u
      · exact (State.layer_congr hlys id).trans (State.withLayer_layer_ne _ _ hid)
    · have hf : p.closeFixed = true := by
        simp only [Pass.closeFixed, Bool.or_eq_true, Bool.and_eq_true, decide_eq_true_eq, Option.isSome_iff_ne_none]
        tauto
      exact exec_atOnce (f := id) hacc htime (execClose_closed ((xpass i).trans hp) hf 0)

end Sys2Proof.Machine
end

section
/-! PROOFS. The pool's claims when nothing has to be reclaimed (R54, R55), and the slots of a snapped span (R79). -/

namespace Sys2Proof.Machine

/-! ## Records written over -/

theorem State.withLayer_withLayer (s : State) (id : LayerId) (x y : Option Layer) :
    (s.withLayer id x).withLayer id y = s.withLayer id y := by
  simp [State.withLayer]

theorem State.withLayer_self {s : State} {id : LayerId} {x : Option Layer} (h : s.layer id = x) : s.withLayer id x = s := by
  subst h
  simp [State.withLayer, State.layer]

theorem State.withTrack_self (s : State) (t : TrackId) : s.withTrack t (s.track t) = s := by
  simp [State.withTrack, State.track]

theorem State.withLayer_withPgp (s : State) (id : LayerId) (x : Option Layer) (g : Pgp) :
    (s.withLayer id x).withPgp g = (s.withPgp g).withLayer id x := rfl

theorem State.withPgp_withPgp (s : State) (g k : Pgp) : (s.withPgp g).withPgp k = s.withPgp k := rfl

/-! ## The low mark and the reclaim run -/

/-- A low mark test that keeps the flag sends no event (R65). -/
theorem lowMark_still {s : State} (h : lowFlagAfter s.pgp.low s.freeCount = s.pgp.low) :
    lowMark s = s.withPgp { s.pgp with lowest := min s.pgp.lowest s.freeCount } := by
  simp [lowMark, h]

/-- A reclaim run whose need is met reclaims nothing (R58). -/
theorem reclaimRun_of_met {need : Need} {met : State → Bool} {s : State} (h : met s = true) (n : Nat) :
    reclaimRun need met n s = s := by
  cases n with
  | zero => rfl
  | succ n => simp [reclaimRun, h]

/-- A reclaim run without a victim reclaims nothing (R58). -/
theorem reclaimRun_of_no_victim {need : Need} {met : State → Bool} {s : State} (h : s.victim = none) (n : Nat) :
    reclaimRun need met n s = s := by
  cases n with
  | zero => rfl
  | succ n => simp [reclaimRun, reclaimOne, h]

/-- The victim and the reclaimable count depend on the park stamps and pages of the PARKED layers only. -/
theorem State.victim_congr {s u : State} (h : ∀ k, (u.layer k).bind Layer.reclaimStamp = (s.layer k).bind Layer.reclaimStamp) :
    u.victim = s.victim := by
  have hv : olderVictim u = olderVictim s := by
    funext best k
    simp only [olderVictim, h]
  rw [State.victim, State.victim, hv]

/-- The pages of a layer that a reclaim run may give (R52). -/
def Layer.reclaimPages (l : Layer) : Nat := if l.reclaimStamp.isSome then l.map.length else 0

theorem State.reclaimable_congr {s u : State}
    (h : ∀ k, ((u.layer k).map Layer.reclaimPages).getD 0 = ((s.layer k).map Layer.reclaimPages).getD 0) :
    u.reclaimable = s.reclaimable :=
  congrArg List.sum (List.map_congr_left fun k _ => h k)

/-! ## Single-page claims -/

theorem moveHead_free {id : LayerId} {slot : Nat} {s : State} {l : Layer} {pg : Page} {rest : List Page}
    (hl : s.layer id = some l) (hf : s.pgp.free = pg :: rest) (hs : slotPage l.map slot = none) :
    moveHead id slot s =
      ((s.withPgp { s.pgp with free := rest }).withLayer id (some { l with map := putSlot slot pg l.map }), true) := by
  simp [moveHead, hf, hl, hs]

/-- A single-page claim takes the free list's head (R54). -/
theorem claimPage_free {id : LayerId} {slot : Nat} {s : State} {l : Layer} {pg : Page} {rest : List Page}
    (hl : s.layer id = some l) (hf : s.pgp.free = pg :: rest) (hs : slotPage l.map slot = none) :
    claimPage id slot s =
      (lowMark ((s.withPgp { s.pgp with free := rest }).withLayer id (some { l with map := putSlot slot pg l.map })),
        true) := by
  simp [claimPage, reclaimRun_of_met (s := s) (met := fun x => !x.pgp.free.isEmpty) (by simp [hf]), moveHead_free hl hf hs]

/-- A single-page claim on an empty free list without a victim is refused, and counted (R54). -/
theorem claimPage_starved {id : LayerId} {slot : Nat} {s : State} (hf : s.pgp.free = []) (hv : s.victim = none) :
    claimPage id slot s = (s.withPgp { s.pgp with starved := sat32 (s.pgp.starved + 1) }, false) := by
  simp [claimPage, reclaimRun_of_no_victim hv, moveHead, hf]

/-! ## Group claims -/

theorem putSlot_last {slot : Nat} {pg : Page} : ∀ {m : List (Nat × Page)}, (∀ c ∈ m, c.1 < slot) →
    putSlot slot pg m = m ++ [(slot, pg)] ∧ slotPage m slot = none
  | [], _ => ⟨rfl, rfl⟩
  | (a, b) :: m, h => by
    have ha : a < slot := h (a, b) (by simp)
    obtain ⟨ih, hn⟩ := putSlot_last (slot := slot) (pg := pg) (m := m) fun c hc => h c (by simp [hc])
    have h1 : ¬ slot < a := by omega
    have h2 : ¬ slot = a := by omega
    have h3 : ¬ a = slot := by omega
    exact ⟨by simp [putSlot, h1, h2, ih], by simp [slotPage, h3, hn]⟩

/-- Ascending slots above those of the map each take the free list's head, in order (R55). -/
theorem foldl_moveHead {id : LayerId} : ∀ {slots : List Nat} {s : State} {l : Layer}, s.layer id = some l →
    slots.Pairwise (· < ·) → (∀ c ∈ l.map, ∀ x ∈ slots, c.1 < x) → slots.length ≤ s.pgp.free.length →
    slots.foldl (fun s slot => (moveHead id slot s).1) s =
      (s.withPgp { s.pgp with free := s.pgp.free.drop slots.length }).withLayer id
        (some { l with map := l.map ++ slots.zip s.pgp.free })
  | [], s, l, hl, _, _, _ => by
    simp only [List.foldl_nil, List.length_nil, List.drop_zero, List.zip_nil_left, List.append_nil]
    exact (State.withLayer_self hl).symm
  | x :: slots, s, l, hl, hp, hm, hn => by
    obtain ⟨hx, hp⟩ := List.pairwise_cons.1 hp
    cases hf : s.pgp.free with
    | nil => simp [hf] at hn
    | cons pg rest =>
      obtain ⟨hput, hslot⟩ := putSlot_last (slot := x) (pg := pg) (m := l.map) fun c hc => hm c hc x (by simp)
      rw [List.foldl_cons, moveHead_free hl hf hslot, hput]
      simp only
      rw [foldl_moveHead (State.withLayer_layer_same ..) hp ?_ ?_]
      · rw [State.withLayer_withPgp, State.withLayer_withLayer]
        simp [State.withPgp_withPgp]
      · intro c hc y hy
        obtain hc | hc := List.mem_append.1 hc
        · exact hm c hc y (by simp [hy])
        · rw [List.mem_singleton.1 hc]
          exact hx y hy
      · simpa [hf] using hn

/-- A group claim that the free list covers (R55). -/
theorem claimGroup_free {id : LayerId} {slots : List Nat} {s : State} {l : Layer} (hl : s.layer id = some l)
    (hmap : l.map = []) (hp : slots.Pairwise (· < ·)) (hn : slots.length ≤ s.pgp.free.length) :
    claimGroup id slots s =
      (lowMark ((s.withPgp { s.pgp with free := s.pgp.free.drop slots.length }).withLayer id
        (some { l with map := slots.zip s.pgp.free })), true) := by
  have henough : ¬ s.freeCount + s.reclaimable < slots.length := by simp only [State.freeCount]; omega
  rw [claimGroup, if_neg henough]
  simp only [reclaimRun_of_met (s := s) (met := fun x => slots.length ≤ x.freeCount) (decide_eq_true hn)]
  rw [foldl_moveHead hl hp (by simp [hmap]) hn, hmap, List.nil_append]

/-- A group claim that neither the free list nor a reclaim run covers is refused, and counted (R55). -/
theorem claimGroup_short {id : LayerId} {slots : List Nat} {s : State}
    (h : s.pgp.free.length + s.reclaimable < slots.length) :
    claimGroup id slots s = (s.withPgp { s.pgp with groupRefusals := sat32 (s.pgp.groupRefusals + 1) }, false) :=
  if_pos h

/-! ## The slots of a span (R79) -/

theorem mem_addSlot {x z : Nat} : ∀ {ys : List Nat}, z ∈ addSlot x ys ↔ z = x ∨ z ∈ ys
  | [] => by simp [addSlot]
  | y :: ys => by
    unfold addSlot
    split
    · simp
    · split
      · next e => subst e; simp
      · simp only [List.mem_cons, mem_addSlot (ys := ys)]
        tauto

theorem addSlot_ascending {x : Nat} : ∀ {ys : List Nat}, ys.Pairwise (· < ·) → (addSlot x ys).Pairwise (· < ·)
  | [], _ => by simp [addSlot]
  | y :: ys, h => by
    obtain ⟨hy, hys⟩ := List.pairwise_cons.1 h
    unfold addSlot
    split
    · next hx =>
      refine List.pairwise_cons.2 ⟨fun z hz => ?_, h⟩
      obtain rfl | hz := List.mem_cons.1 hz
      · exact hx
      · exact lt_trans hx (hy z hz)
    · split
      · exact h
      · refine List.pairwise_cons.2 ⟨fun z hz => ?_, addSlot_ascending hys⟩
        obtain rfl | hz := mem_addSlot.1 hz
        · omega
        · exact hy z hz

theorem foldl_addSlot (f : Nat → Nat) : ∀ (js : List Nat) {acc : List Nat}, acc.Pairwise (· < ·) →
    (js.foldl (fun acc j => addSlot (f j) acc) acc).Pairwise (· < ·) ∧
      ∀ z, z ∈ js.foldl (fun acc j => addSlot (f j) acc) acc ↔ z ∈ acc ∨ ∃ j ∈ js, z = f j
  | [], _, h => ⟨h, by simp⟩
  | j :: js, acc, h => by
    obtain ⟨hp, hm⟩ := foldl_addSlot f js (addSlot_ascending (x := f j) h)
    refine ⟨hp, fun z => ?_⟩
    rw [List.foldl_cons, hm, mem_addSlot]
    simp only [List.mem_cons, exists_eq_or_imp]
    tauto

/-- The slots of a span, ascending: those of its positions and no others. -/
theorem touchedSlots_spec (start d len : Nat) :
    (touchedSlots start d len).Pairwise (· < ·) ∧
      ∀ x, x ∈ touchedSlots start d len ↔ ∃ j, j ≤ d ∧ x = (start + j) % len / 256 := by
  obtain ⟨hp, hm⟩ := foldl_addSlot (fun j => (start + j) % len / 256) (List.range (d + 1)) List.Pairwise.nil
  refine ⟨hp, fun x => (hm x).trans ?_⟩
  simp

/-- A span of fewer than 257 positions from the start of an OPENING layer lies in its slot 0. -/
theorem touchedSlots_opening {d : Nat} (h : d < 256) : touchedSlots 0 d 240000 = [0] := by
  obtain ⟨hp, hm⟩ := touchedSlots_spec 0 d 240000
  have hzero : ∀ x, x ∈ touchedSlots 0 d 240000 ↔ x = 0 := fun x => by
    rw [hm]
    constructor
    · rintro ⟨j, hj, rfl⟩
      omega
    · rintro rfl
      exact ⟨0, by omega, by omega⟩
  match hx : touchedSlots 0 d 240000, hzero, hp with
  | [], hzero, _ => exact absurd ((hzero 0).2 rfl) (by simp)
  | [x], hzero, _ => rw [(hzero x).1 (by simp)]
  | x :: y :: _, hzero, hp =>
    have hlt : x < y := (List.pairwise_cons.1 hp).1 y (by simp)
    have hy := (hzero y).1 (by simp)
    omega

end Sys2Proof.Machine
end

section
/-! PROOFS. The start of a pass (R76 to R79). -/

namespace Sys2Proof.Machine

/-! ## The record of a new pass -/

/-- The layer record of a pass that starts (R28, R78). -/
def Layer.forPass (i : Input) (t : TrackId) (length : Option Nat) (serial start written : Nat)
    (map : List (Nat × Page)) : Layer :=
  { state := .recording, track := t, input := some i, length := length, start := start, written := written, map := map,
    level := 256, pinned := false, serial := serial, stamp := none }

/-- A FREE record becomes the layer of a pass, still without a page; the serial counter advances (R28). -/
def formRecord (i : Input) (t : TrackId) (length : Option Nat) (id : LayerId) (s : State) : State :=
  (advanceSerial s).withLayer id (some (.forPass i t length s.lys.serials 0 0 []))

/-- What a pass that starts on a track is: its kind, its layer's length and the track position of the current block. -/
structure startsAs (s : State) (t : TrackId) (kind : PassKind) (length : Option Nat) (here : Nat) : Prop where
  kind_eq : s.kindFor t = kind
  length_eq : (if kind = .fixed then s.trackLen t else none) = length
  here_eq : s.herePos kind t = here

/-- The position at which a pass of a kind starts, `e` blocks back (R79). -/
def startPos (kind : PassKind) (length : Option Nat) (here e : Nat) : Nat :=
  if kind = .fixed then (here + length.getD 240000 - e) % length.getD 240000 else 0

/-- A start whose pages are settled (R78). -/
theorem startPass_of_settled {s x y : State} {i : Input} {t : TrackId} {kind : PassKind} {length : Option Nat}
    {here d e : Nat} {id : LayerId} (h : startsAs s t kind length here) (hr : findRecord (freeRedo t s) = some (id, x))
    (hs : settlePages id here d (length.getD 240000) (formRecord i t length id x) = (y, some e)) :
    startPass i t d s =
      (emit (.passStarted i t id x.lys.serials kind (startPos kind length here e) e)
        (enterPass i t kind id here (startPos kind length here e) e
          (mapLayer id (fun l => { l with start := startPos kind length here e, written := e }) y)), .done) := by
  obtain ⟨rfl, rfl, rfl⟩ := h
  simp only [startPass, hr]
  change (match settlePages id _ d _ (formRecord i t _ id x) with
    | (s3, none) => _
    | (s3, some e) => _) = _
  rw [hs]
  rfl

/-- A start for which no page is to be had: the record is given back (R78). -/
theorem startPass_of_unsettled {s x y : State} {i : Input} {t : TrackId} {kind : PassKind} {length : Option Nat}
    {here d : Nat} {id : LayerId} (h : startsAs s t kind length here) (hr : findRecord (freeRedo t s) = some (id, x))
    (hs : settlePages id here d (length.getD 240000) (formRecord i t length id x) = (y, none)) :
    startPass i t d s = (settleTrack t (dropLayer id y), .noRoom) := by
  obtain ⟨rfl, rfl, rfl⟩ := h
  simp only [startPass, hr]
  change (match settlePages id _ d _ (formRecord i t _ id x) with
    | (s3, none) => _
    | (s3, some e) => _) = _
  rw [hs]

/-! ## The state of a pass that has started -/

/-- The state in which a pass has started, its pages taken and its event not yet sent (R78). -/
def entered (i : Input) (t : TrackId) (kind : PassKind) (id : LayerId) (length : Option Nat) (here start e : Nat)
    (map : List (Nat × Page)) (pool : Pgp) (s : State) : State :=
  let tr := s.track t
  let first : Bool := tr.state = .empty
  let pass : Pass :=
    { state := .writing, track := t, kind := kind, layer := id, start := start, snap := e,
      close := if kind = .fixed then some start else none, writePos := here, backfill := e, cut := none,
      order := s.pse.openings, spillReady := false }
  let y := (((s.withLayer id (some (.forPass i t length s.lys.serials start e map))).withTrack t
    { tr with stack := tr.stack ++ [id], state := if first then .opening else tr.state,
              anchor := if first then some (if kind = .measure then 0 else s.cyc.count) else tr.anchor }).withPass i
    (some pass)).withPgp pool
  { y with cyc := if kind = .measure then s.cyc.startMeasuring else s.cyc,
           lys.serials := wrap32 (s.lys.serials + 1), pse.openings := s.pse.openings + 1 }

theorem enterPass_formRecord (i : Input) (t : TrackId) (kind : PassKind) (id : LayerId) (length : Option Nat)
    (here start e : Nat) (map : List (Nat × Page)) (pool : Pgp) (s : State) :
    enterPass i t kind id here start e (mapLayer id (fun l => { l with start := start, written := e })
      (((formRecord i t length id s).withPgp pool).withLayer id (some (.forPass i t length s.lys.serials 0 0 map)))) =
      entered i t kind id length here start e map pool s := by
  rw [mapLayer_of_some (State.withLayer_layer_same ..), State.withLayer_withLayer, formRecord, State.withLayer_withPgp,
    State.withLayer_withLayer]
  cases kind <;> rfl

/-- With an empty redo list and a FREE record, the start finds its record at once (R28, R32). -/
theorem findRecord_of_free {s : State} {t : TrackId} {id : LayerId} (hredo : (s.track t).redo = [])
    (hfree : s.freeRecord = some id) : findRecord (freeRedo t s) = some (id, s) := by
  have : freeRedo t s = s := by simp [freeRedo, hredo, State.havingPin]
  rw [this]
  simp only [findRecord, hfree]

/-- A start that takes a FREE record and pages of the free list (R78). -/
theorem startPass_entered {s : State} {i : Input} {t : TrackId} {kind : PassKind} {length : Option Nat}
    {here d e : Nat} {id : LayerId} {map : List (Nat × Page)} {pool : Pgp} (h : startsAs s t kind length here)
    (hredo : (s.track t).redo = []) (hfree : s.freeRecord = some id)
    (hs : settlePages id here d (length.getD 240000) (formRecord i t length id s) =
      (((formRecord i t length id s).withPgp pool).withLayer id (some (.forPass i t length s.lys.serials 0 0 map)),
        some e)) :
    startPass i t d s =
      (emit (.passStarted i t id s.lys.serials kind (startPos kind length here e) e)
        (entered i t kind id length here (startPos kind length here e) e map pool s), .done) := by
  rw [startPass_of_settled h (findRecord_of_free hredo hfree) hs, enterPass_formRecord]

/-! ## Pages settled without a reclaim -/

section
variable {s : State} {i : Input} {t : TrackId} {length : Option Nat} {id : LayerId}

theorem formRecord_layer (k : LayerId) : (formRecord i t length id s).layer k =
    if k = id then some (.forPass i t length s.lys.serials 0 0 []) else s.layer k :=
  State.withLayer_layer ..

/-- A new record is no candidate of a reclaim run. -/
theorem formRecord_reclaim (h : s.layer id = none) :
    (formRecord i t length id s).victim = s.victim ∧ (formRecord i t length id s).reclaimable = s.reclaimable := by
  refine ⟨State.victim_congr fun k => ?_, State.reclaimable_congr fun k => ?_⟩ <;>
  · rw [formRecord_layer]
    split
    · next e => rw [e, h]; rfl
    · rfl

theorem settlePages_zero (id : LayerId) (here len : Nat) (s : State) : settlePages id here 0 len s =
    ((claimPage id (here / 256) s).1, if (claimPage id (here / 256) s).2 then some 0 else none) := rfl

/-- Single-page: the pass begins in the current block (R54, R78). -/
theorem settlePages_single {here len : Nat} {pg : Page} {rest : List Page} (hf : s.pgp.free = pg :: rest) :
    settlePages id here 0 len (formRecord i t length id s) =
      (lowMark (((formRecord i t length id s).withPgp { s.pgp with free := rest }).withLayer
        id (some (.forPass i t length s.lys.serials 0 0 [(here / 256, pg)]))), some 0) := by
  have hl : (formRecord i t length id s).layer id = some (.forPass i t length s.lys.serials 0 0 []) := by
    rw [formRecord_layer, if_pos rfl]
  rw [settlePages_zero, claimPage_free hl hf rfl]
  rfl

theorem settlePages_single_still {here len : Nat} {pg : Page} {rest : List Page} (hf : s.pgp.free = pg :: rest)
    (hlow : lowFlagAfter s.pgp.low rest.length = s.pgp.low) :
    settlePages id here 0 len (formRecord i t length id s) =
      (((formRecord i t length id s).withPgp { s.pgp with free := rest, lowest := min s.pgp.lowest rest.length }).withLayer
        id (some (.forPass i t length s.lys.serials 0 0 [(here / 256, pg)])), some 0) := by
  rw [settlePages_single hf, lowMark_still hlow]
  rfl

/-- The group claim of a snapped start, met from the free list (R55). -/
theorem settlePages_group {here d len : Nat} {slots : List Nat} (hd : 1 ≤ d)
    (hslots : touchedSlots ((here + len - d) % len) d len = slots) (hn : slots.length ≤ s.pgp.free.length)
    (hlow : lowFlagAfter s.pgp.low (s.pgp.free.length - slots.length) = s.pgp.low) :
    settlePages id here d len (formRecord i t length id s) =
      (((formRecord i t length id s).withPgp
        { s.pgp with free := s.pgp.free.drop slots.length,
                     lowest := min s.pgp.lowest (s.pgp.free.length - slots.length) }).withLayer
        id (some (.forPass i t length s.lys.serials 0 0 (slots.zip s.pgp.free))), some d) := by
  have hl : (formRecord i t length id s).layer id = some (.forPass i t length s.lys.serials 0 0 []) := by
    rw [formRecord_layer, if_pos rfl]
  have hp : slots.Pairwise (· < ·) := hslots ▸ (touchedSlots_spec ((here + len - d) % len) d len).1
  simp only [settlePages, if_pos hd, hslots, claimGroup_free hl rfl hp hn]
  rw [lowMark_still (by rw [← List.length_drop] at hlow; exact hlow)]
  rw [← List.length_drop]
  rfl

/-- The group claim of a snapped start that the pool cannot meet: the snap is dropped (R55, R79). -/
theorem settlePages_short {here d len : Nat} {pg : Page} {rest : List Page} (hd : 1 ≤ d) (hnone : s.layer id = none)
    (hshort : s.pgp.free.length + s.reclaimable < (touchedSlots ((here + len - d) % len) d len).length)
    (hf : s.pgp.free = pg :: rest) (hlow : lowFlagAfter s.pgp.low rest.length = s.pgp.low) :
    settlePages id here d len (formRecord i t length id s) =
      (((formRecord i t length id s).withPgp
        { s.pgp with free := rest, lowest := min s.pgp.lowest rest.length,
                     groupRefusals := sat32 (s.pgp.groupRefusals + 1) }).withLayer
        id (some (.forPass i t length s.lys.serials 0 0 [(here / 256, pg)])), some 0) := by
  have hl : (formRecord i t length id s).layer id = some (.forPass i t length s.lys.serials 0 0 []) := by
    rw [formRecord_layer, if_pos rfl]
  have hclaim := claimGroup_short (id := id) (s := formRecord i t length id s)
    (slots := touchedSlots ((here + len - d) % len) d len) (by rw [(formRecord_reclaim hnone).2]; exact hshort)
  simp only [settlePages, if_pos hd, hclaim, Bool.false_eq_true, if_false]
  have hpage (g : Pgp) (hg : g.free = pg :: rest) := claimPage_free (slot := here / 256)
    (s := (formRecord i t length id s).withPgp g) hl hg rfl
  rw [hpage]
  · simp only [if_true]
    rw [lowMark_still hlow]
    rfl
  · exact hf

/-- Neither a page nor a victim (R54). -/
theorem settlePages_none {here len : Nat} (hnone : s.layer id = none) (hf : s.pgp.free = []) (hv : s.victim = none) :
    settlePages id here 0 len (formRecord i t length id s) =
      ((formRecord i t length id s).withPgp { s.pgp with starved := sat32 (s.pgp.starved + 1) }, none) := by
  have hclaim := claimPage_starved (id := id) (slot := here / 256) (s := formRecord i t length id s) hf
    ((formRecord_reclaim hnone).1.trans hv)
  rw [settlePages_zero, hclaim]
  rfl

/-- A record given back is as if it had not been taken, the serial counter aside (R78, log 11). -/
theorem dropLayer_formRecord (hnone : s.layer id = none) (hstack : id ∉ (s.track t).stack)
    (hredo : id ∉ (s.track t).redo) (g : Pgp) :
    dropLayer id ((formRecord i t length id s).withPgp g) = (advanceSerial s).withPgp g := by
  have hl : ((formRecord i t length id s).withPgp g).layer id = some (.forPass i t length s.lys.serials 0 0 []) := by
    rw [State.withPgp_layer, formRecord_layer, if_pos rfl]
  have hfilter : ∀ {xs : List LayerId}, id ∉ xs → xs.filter (· ≠ id) = xs := fun {xs} h =>
    List.filter_eq_self.2 fun x hx => decide_eq_true fun e => h (e ▸ hx)
  have htrack : ({ s.track t with stack := (s.track t).stack.filter (· ≠ id),
                                  redo := (s.track t).redo.filter (· ≠ id) } : Track) = s.track t := by
    rw [hfilter hstack, hfilter hredo]
  have hlayer : ((advanceSerial s).withPgp g).withLayer id none = (advanceSerial s).withPgp g := State.withLayer_self hnone
  rw [dropLayer_eq hl]
  simp only [Layer.forPass, List.map_nil, List.append_nil, Bool.false_eq_true, if_false]
  change (((((advanceSerial s).withLayer id _).withPgp g).withTrack t { s.track t with
    stack := (s.track t).stack.filter (· ≠ id), redo := (s.track t).redo.filter (· ≠ id) }).withPgp g).withLayer id none = _
  rw [htrack]
  calc _ = ((((advanceSerial s).withLayer id _).withLayer id none).withTrack t ((advanceSerial s).track t)).withPgp g := rfl
    _ = _ := by rw [State.withLayer_withLayer, ← hlayer]; exact congrArg (State.withPgp · g) (State.withTrack_self _ t)

end

end Sys2Proof.Machine
end

section
/-! PROOFS. PASS_OPEN (R76 to R79): the redo list freed at a start (R32), and the four kinds of start. -/

namespace Sys2Proof.Machine

/-! ## The redo list freed (R32) -/

/-- The pages of a layer record, in slot order. -/
def State.pagesOf (s : State) (id : LayerId) : List Page := ((s.layer id).map fun l => l.map.map (·.2)).getD []

/-- What the freeing of layers of one track leaves. -/
structure Freed (t : TrackId) (ids : List LayerId) (s u : State) : Prop where
  track : u.track t = { s.track t with stack := (s.track t).stack.filter (· ∉ ids),
                                       redo := (s.track t).redo.filter (· ∉ ids) }
  layer : ∀ k, u.layer k = if k ∈ ids then none else s.layer k
  free : u.pgp.free = s.pgp.free ++ ids.flatMap s.pagesOf
  serials : u.lys.serials = s.lys.serials

theorem dropLayers_freed {t : TrackId} : ∀ {ids : List LayerId} {s : State}, ids.Nodup →
    (∀ id ∈ ids, ∃ l, s.layer id = some l ∧ l.track = t) → Freed t ids s (ids.foldl (fun s id => dropLayer id s) s)
  | [], s, _, _ => ⟨by simp, by simp, by simp, rfl⟩
  | id :: ids, s, hn, h => by
    obtain ⟨hid, hn⟩ := List.nodup_cons.1 hn
    obtain ⟨l, hl, ht⟩ := h id (by simp)
    have hlayer : ∀ k ∈ ids, (dropLayer id s).layer k = s.layer k := fun k hk => by
      have hne : k ≠ id := fun e => hid (e ▸ hk)
      rw [dropLayer_layer, if_neg hne]
    have ih := dropLayers_freed (t := t) (s := dropLayer id s) hn fun k hk => by
      rw [hlayer k hk]
      exact h k (by simp [hk])
    rw [List.foldl_cons]
    refine ⟨?_, fun k => ?_, ?_, ih.serials.trans (dropLayer_counters id s).1⟩
    · rw [ih.track, dropLayer_track hl, if_pos ht.symm]
      simp [Track.without, List.filter_filter, Bool.and_comm]
    · rw [ih.layer, dropLayer_layer]
      by_cases hk : k ∈ ids <;> by_cases he : k = id <;> simp [hk, he]
    · have hpages : ids.flatMap (dropLayer id s).pagesOf = ids.flatMap s.pagesOf :=
        List.flatMap_congr fun k hk => by simp only [State.pagesOf, hlayer k hk]
      rw [ih.free, dropLayer_pgp hl, hpages]
      simp [State.pagesOf, hl]

/-- The unpinned layers of the redo list are freed, head to tail (R32). -/
theorem freeRedo_freed {s : State} {t : TrackId} {gone : List LayerId} (hg : s.havingPin false (s.track t).redo = gone)
    (hne : gone ≠ []) (hn : gone.Nodup) (h : ∀ id ∈ gone, ∃ l, s.layer id = some l ∧ l.track = t) :
    Freed t gone s (freeRedo t s) := by
  have hf := dropLayers_freed hn h
  have hr : freeRedo t s = lowMark (gone.foldl (fun s id => dropLayer id s) s) := by simp [freeRedo, hg, hne]
  rw [hr]
  refine ⟨(State.track_congr (lowMark_lys _) t).trans hf.track,
    fun k => (State.layer_congr (lowMark_lys _) k).trans (hf.layer k), ?_,
    (congrArg Lys.serials (lowMark_lys _)).trans hf.serials⟩
  rw [lowMark_pgp]
  exact hf.free

/-! ## The record taken (R28) -/

theorem allLayers_ascending : allLayers.Pairwise (· < ·) := by decide

theorem mem_allLayers (id : LayerId) : id ∈ allLayers := by
  revert id
  decide

/-- The record taken is the FREE one with the lowest number. -/
theorem freeRecord_lowest {s : State} {id : LayerId} (h : s.freeRecord = some id) :
    s.layer id = none ∧ ∀ k, k < id → s.layer k ≠ none := by
  obtain ⟨hid, as, bs, hsplit, has⟩ := List.find?_eq_some_iff_append.1 h
  refine ⟨by simpa using hid, fun k hk => ?_⟩
  have hmem : k ∈ as ++ id :: bs := hsplit ▸ mem_allLayers k
  have hasc : (as ++ id :: bs).Pairwise (· < ·) := hsplit ▸ allLayers_ascending
  obtain hk' | hk' := List.mem_append.1 hmem
  · simpa [Option.isSome_iff_ne_none] using has k hk'
  · obtain rfl | hk' := List.mem_cons.1 hk'
    · exact absurd hk (lt_irrefl _)
    · exact absurd ((List.pairwise_cons.1 (List.pairwise_append.1 hasc).2.1).1 k hk') (lt_asymm hk)

theorem freeRecord_of_free {s : State} {k : LayerId} (h : s.layer k = none) : ∃ id, s.freeRecord = some id :=
  Option.isSome_iff_exists.1 (List.find?_isSome.2 ⟨k, mem_allLayers k, by simp [h]⟩)

/-! ## A start's entry into its track -/

/-- What the entry of a FIXED pass leaves and changes in the store (R78). -/
theorem enterPass_fixed_store (i : Input) (t : TrackId) (id : LayerId) (here start d : Nat) {s : State}
    (h : (s.track t).state = .looping) :
    (enterPass i t .fixed id here start d s).lys =
      (s.withTrack t { s.track t with stack := (s.track t).stack ++ [id] }).lys ∧
      (enterPass i t .fixed id here start d s).pgp = s.pgp := by
  simp [enterPass, h]

/-- A FIXED pass entered after a single-page claim: its store is the one before, with the record and the track's stack
grown (R54, R78). -/
theorem enterPass_claimed (i : Input) (t : TrackId) (length : Option Nat) (id : LayerId) (here start : Nat) (pg : Page)
    (rest : List Page) {x : State} (h : (x.track t).state = .looping) :
    let w := ((formRecord i t length id x).withPgp { x.pgp with free := rest }).withLayer id
      (some (.forPass i t length x.lys.serials 0 0 [(here / 256, pg)]))
    let u := enterPass i t .fixed id here start 0
      (mapLayer id (fun l => { l with start := start, written := 0 }) (lowMark w))
    u.lys = (((advanceSerial x).withLayer id (some (.forPass i t length x.lys.serials start 0 [(here / 256, pg)]))).withTrack t
      { x.track t with stack := (x.track t).stack ++ [id] }).lys ∧ u.pgp.free = rest := by
  intro w u
  have hw : (lowMark w).layer id = some (.forPass i t length x.lys.serials 0 0 [(here / 256, pg)]) :=
    (State.layer_congr (lowMark_lys w) id).trans (State.withLayer_layer_same ..)
  have hu : u = enterPass i t .fixed id here start 0 ((lowMark w).withLayer id
      (some (.forPass i t length x.lys.serials start 0 [(here / 256, pg)]))) := by
    simp only [u]
    rw [mapLayer_of_some hw]
    rfl
  have hwlys : (lowMark w).lys = ((advanceSerial x).withLayer id
      (some (.forPass i t length x.lys.serials 0 0 [(here / 256, pg)]))).lys := by
    rw [lowMark_lys, ← State.withLayer_withLayer (advanceSerial x) id (some (.forPass i t length x.lys.serials 0 0 []))]
    rfl
  have hwfree : (lowMark w).pgp.free = rest := by rw [lowMark_pgp]; rfl
  generalize lowMark w = v at hu hwlys hwfree
  have htrack : v.track t = x.track t := State.track_congr hwlys t
  obtain ⟨hlys, hpgp⟩ := enterPass_fixed_store i t id here start 0 (s := v.withLayer id
    (some (.forPass i t length x.lys.serials start 0 [(here / 256, pg)]))) (by rw [State.withLayer_track, htrack]; exact h)
  rw [hu]
  refine ⟨hlys.trans ?_, (congrArg Pgp.free hpgp).trans hwfree⟩
  rw [State.withLayer_track, htrack, ← State.withLayer_withLayer (advanceSerial x) id
    (some (.forPass i t length x.lys.serials 0 0 [(here / 256, pg)]))]
  simp only [State.withTrack, State.withLayer, hwlys]

/-- A FIXED pass that has started on a track whose unpinned redo layers were freed for it (R32, R78). -/
structure FreshPass (t : TrackId) (gone : List LayerId) (pg : Page) (rest : List Page) (id : LayerId) (s u : State) :
    Prop where
  record : s.layer id = none ∨ id ∈ gone
  lowest : ∀ x, x < id → s.layer x ≠ none ∧ x ∉ gone
  track : u.track t = { s.track t with stack := (s.track t).stack ++ [id],
                                       redo := (s.track t).redo.filter fun x => x ∉ gone }
  freed : ∀ x ∈ gone, x ≠ id → u.layer x = none
  others : ∀ x, x ≠ id → x ∉ gone → u.layer x = s.layer x
  layer : ∃ l, u.layer id = some l ∧ l.state = .recording ∧ l.track = t ∧ l.serial = s.lys.serials ∧ l.map.map (·.2) = [pg]
  free : u.pgp.free = rest
  serials : u.lys.serials = (s.lys.serials + 1) % 4294967296

theorem FreshPass.of_claimed {i : Input} {t : TrackId} {length : Option Nat} {gone : List LayerId} {start slot : Nat}
    {pg : Page} {rest : List Page} {id : LayerId} {s x u : State} (hf : Freed t gone s x) (hid : x.freeRecord = some id)
    (hstack : ∀ k ∈ gone, k ∉ (s.track t).stack)
    (hlys : u.lys = (((advanceSerial x).withLayer id
      (some (.forPass i t length x.lys.serials start 0 [(slot, pg)]))).withTrack t
        { x.track t with stack := (x.track t).stack ++ [id] }).lys) (hrest : u.pgp.free = rest) :
    FreshPass t gone pg rest id s u := by
  obtain ⟨hidnone, hlowest⟩ := freeRecord_lowest hid
  have hkeep : (s.track t).stack.filter (· ∉ gone) = (s.track t).stack :=
    List.filter_eq_self.2 fun k hk => decide_eq_true fun hk' => hstack k hk' hk
  have hlayer : ∀ k, u.layer k = if k = id then some (.forPass i t length x.lys.serials start 0 [(slot, pg)]) else
      x.layer k := fun k =>
    (State.layer_congr hlys k).trans (State.withLayer_layer ..)
  have hold : ∀ {k}, x.layer k = none → s.layer k = none ∨ k ∈ gone := fun {k} hk => by
    rw [hf.layer] at hk
    split at hk
    · next hm => exact .inr hm
    · exact .inl hk
  refine
    { record := hold hidnone
      lowest := fun k hk => ?_
      track := ?_
      freed := fun k hk hne => ?_
      others := fun k hne hk => ?_
      layer := ⟨_, (hlayer id).trans (if_pos rfl), rfl, rfl, hf.serials, rfl⟩
      free := hrest
      serials := ?_ }
  · have := hlowest k hk
    rw [hf.layer] at this
    split at this
    · exact absurd rfl this
    · next hm => exact ⟨this, hm⟩
  · rw [State.track_congr hlys, State.withTrack_track_same, hf.track, hkeep]
  · rw [hlayer, if_neg hne, hf.layer, if_pos hk]
  · rw [hlayer, if_neg hne, hf.layer, if_neg hk]
  · rw [hlys, ← hf.serials]
    rfl

theorem startPass_fresh {s : State} {i : Input} {t : TrackId} {length : Option Nat} {here : Nat} {gone : List LayerId}
    {pg : Page} {rest : List Page} (h : startsAs s t .fixed length here) (hloop : (s.track t).state = .looping)
    (hg : s.havingPin false (s.track t).redo = gone) (hne : gone ≠ []) (hn : gone.Nodup)
    (hown : ∀ id ∈ gone, ∃ l, s.layer id = some l ∧ l.track = t) (hstack : ∀ id ∈ gone, id ∉ (s.track t).stack)
    (hfree : s.pgp.free ++ gone.flatMap s.pagesOf = pg :: rest) :
    ∃ id u, startPass i t 0 s = (u, .done) ∧ FreshPass t gone pg rest id s u := by
  have hf := freeRedo_freed hg hne hn hown
  generalize hx : freeRedo t s = x at hf
  obtain ⟨k, hk⟩ := List.exists_mem_of_ne_nil gone hne
  obtain ⟨id, hid⟩ := freeRecord_of_free (s := x) (k := k) (by rw [hf.layer, if_pos hk])
  have hrecord : findRecord (freeRedo t s) = some (id, x) := by
    rw [hx]
    simp only [findRecord, hid]
  have hstart := startPass_of_settled (i := i) (d := 0) (e := 0) h hrecord (settlePages_single (hf.free.trans hfree))
  obtain ⟨hlys, hrest⟩ := enterPass_claimed i t length id here (startPos .fixed length here 0) pg rest
    (x := x) (by rw [hf.track]; exact hloop)
  obtain ⟨-, elys, epgp, -⟩ := State.inner_fields (onlyEvents_emit
    (.passStarted i t id x.lys.serials .fixed (startPos .fixed length here 0) 0) _).1
  replace hlys := elys.trans hlys
  replace hrest := (congrArg Pgp.free epgp).trans hrest
  exact ⟨id, _, hstart, .of_claimed hf hid hstack hlys hrest⟩

/-! ## The timing and the checks of a PASS_OPEN (R76, R77, R96, R97) -/

theorem State.timing_open_unset {s : State} (h : s.cyc.state = .unset) (lk : Link) (i : Input) (t : TrackId)
    (mode : Quantize) : s.timing lk (.passOpen i t) mode = .atOnce 0 := by
  simp [State.timing, h]

theorem State.timing_open_grace {s : State} {t : TrackId} {p l : Nat} {lk : Link} (h : s.cyc.state = .running)
    (ht : (s.track t).state ≠ .looping) (hp : s.cyc.pos = some p) (hl : s.cyc.len = some l)
    (hg : p ≤ (s.station lk).grace) (i : Input) (mode : Quantize) : s.timing lk (.passOpen i t) mode = .atOnce p := by
  simp [State.timing, h, State.timingMode, ht, State.period, hp, hl, hg]

theorem State.timing_open_now {s : State} {t : TrackId} (h : s.cyc.state = .running) (ht : (s.track t).state = .looping)
    (lk : Link) (i : Input) : s.timing lk (.passOpen i t) .now = .atOnce 0 := by
  simp [State.timing, h, State.timingMode, ht, State.period]

/-- A PASS_OPEN that is accepted: its checks pass (R77). -/
theorem accepted_open {s : State} {lk : Link} {tag input track quantize : Byte} {mode : Quantize} {i : Input} {t : TrackId}
    (h : s.ready lk (.passOpen lk tag input track quantize) = true) (hold : s.inHold = false)
    (hi : inputArg input = some i) (ht : trackArg track = some t) (hq : quantizeArg quantize = some mode)
    (hn : s.pendingSame lk (.passOpen i t) = none) (hc : s.openCheck i t = none) :
    Accepted s lk tag (.passOpen lk tag input track quantize) (.passOpen i t) mode :=
  ⟨h, hold, by simp only [quantizedOf, hi, ht, hq], hn, hc⟩

theorem State.openCheck_none {s : State} {i : Input} {t : TrackId} (hc : s.cyc.state = .unset ∨ s.cyc.state = .running)
    (hp : s.pass i = none) (ht : (s.track t).state ≠ .opening) (hs : (s.track t).stack.length < 12) :
    s.openCheck i t = none := by
  have hs' : ¬ 12 ≤ (s.track t).stack.length := by omega
  obtain hc | hc := hc <;> simp [State.openCheck, hc, hp, ht, hs']

/-- A PASS_OPEN whose checks pass starts its pass (R77). -/
theorem execOpen_starts {s : State} {i : Input} {t : TrackId} {d : Nat} (hc : s.openCheck i t = none)
    (hb : s.offBoundary t d = false) (lk : Link) :
    execAction (.passOpen i t) d (taken lk true s) = startPass i t d (taken lk true s) := by
  obtain ⟨xcyc, -⟩ := taken_fields lk true s
  obtain ⟨xtrack, -, -, xpass⟩ := taken_reads lk true s
  have hc' : (taken lk true s).openCheck i t = none := by simpa only [State.openCheck, xcyc, xtrack, xpass] using hc
  have hb' : (taken lk true s).offBoundary t d = false := by simpa only [State.offBoundary, xcyc, xtrack] using hb
  simp only [execAction, execOpen, hc', hb', Bool.false_eq_true, if_false]

theorem startsAs.taken {s : State} {t : TrackId} {kind : PassKind} {length : Option Nat} {here : Nat}
    (h : startsAs s t kind length here) (lk : Link) : startsAs (taken lk true s) t kind length here := by
  obtain ⟨xcyc, -⟩ := taken_fields lk true s
  obtain ⟨xtrack, -⟩ := taken_reads lk true s
  obtain ⟨rfl, rfl, rfl⟩ := h
  have hkind : (Machine.taken lk true s).kindFor t = s.kindFor t := by simp only [State.kindFor, xcyc, xtrack]
  have hlen : (Machine.taken lk true s).trackLen t = s.trackLen t := by simp only [State.trackLen, xcyc, xtrack]
  refine ⟨hkind, ?_, ?_⟩
  · rw [hlen]
  · simp only [State.herePos, xcyc, taken_trackPos]

/-! ## The obligation -/

/-- The taking of a request leaves the FREE record, the reclaimable count and the victim as they are. -/
theorem taken_store {s : State} {id : LayerId} (h : s.freeRecord = some id) (lk : Link) :
    (taken lk true s).layer id = none ∧ (taken lk true s).reclaimable = s.reclaimable ∧
      (taken lk true s).victim = s.victim ∧ (taken lk true s).freeRecord = some id := by
  obtain ⟨-, xlayer, -⟩ := taken_reads lk true s
  exact ⟨(xlayer id).trans (freeRecord_lowest h).1, State.reclaimable_congr fun k => by rw [xlayer],
    State.victim_congr fun k => by rw [xlayer], by simpa only [State.freeRecord, xlayer] using h⟩

/-- A start without a page and without a victim is refused; the serial counter has advanced (R54, R78, log 11). -/
theorem exec_noRoom {s : State} {lk : Link} {tag : Byte} {c : Instr} {mode : Quantize} {i : Input} {t : TrackId}
    {kind : PassKind} {length : Option Nat} {here : Nat} {id : LayerId} {f : State → State}
    (hacc : Accepted s lk tag c (.passOpen i t) mode) (htime : s.timing lk (.passOpen i t) mode = .atOnce 0)
    (hb : s.offBoundary t 0 = false) (h : startsAs s t kind length here) (hredo : (s.track t).redo = [])
    (hfree : s.freeRecord = some id) (hpg : s.pgp.free = []) (hv : s.victim = none) (hne : (s.track t).stack ≠ [])
    (hid : id ∉ (s.track t).stack)
    (hf : f (taken lk true s) = (advanceSerial (taken lk true s)).withPgp
      { (taken lk true s).pgp with starved := sat32 ((taken lk true s).pgp.starved + 1) }) :
    exec c s = .next (s.served lk 0x06 tag .noRoom f) := by
  obtain ⟨-, -, xpgp, -⟩ := taken_fields lk true s
  obtain ⟨xtrack, -⟩ := taken_reads lk true s
  obtain ⟨hnone, -, hvictim, hrecord⟩ := taken_store hfree lk
  have hredo' : ((taken lk true s).track t).redo = [] := (congrArg Track.redo (xtrack t)).trans hredo
  have hdrop := dropLayer_formRecord (i := i) (length := length) hnone (by rw [xtrack]; exact hid) (by simp [hredo'])
  have hstays (g : Pgp) : settleTrack t ((advanceSerial (taken lk true s)).withPgp g) =
      (advanceSerial (taken lk true s)).withPgp g := settleTrack_of_not fun he => hne ((xtrack t).symm ▸ he.2.1)
  have hexec := execOpen_starts hacc.check hb lk
  rw [startPass_of_unsettled (h.taken lk) (findRecord_of_free hredo' hrecord)
    (settlePages_none hnone (by rw [xpgp]; exact hpg) (hvictim.trans hv)), hdrop, hstays] at hexec
  exact exec_atOnce (f := f) (rc := .noRoom) hacc htime (hexec.trans (congrArg (·, ReplyCode.noRoom) hf.symm))

/-- A start that takes a FREE record and free pages, as a request's effect (R78). -/
theorem exec_entered {s : State} {lk : Link} {tag : Byte} {c : Instr} {mode : Quantize} {i : Input} {t : TrackId}
    {kind : PassKind} {length : Option Nat} {here d e : Nat} {id : LayerId} {map : List (Nat × Page)} {pool : Pgp}
    {f : State → State} (hacc : Accepted s lk tag c (.passOpen i t) mode)
    (htime : s.timing lk (.passOpen i t) mode = .atOnce d) (hb : s.offBoundary t d = false)
    (h : startsAs s t kind length here) (hredo : (s.track t).redo = [])
    (hfree : s.freeRecord = some id)
    (hs : settlePages id here d (length.getD 240000) (formRecord i t length id (taken lk true s)) =
      (((formRecord i t length id (taken lk true s)).withPgp pool).withLayer id
        (some (.forPass i t length (taken lk true s).lys.serials 0 0 map)), some e))
    (hf : f (taken lk true s) =
      emit (.passStarted i t id (taken lk true s).lys.serials kind (startPos kind length here e) e)
        (entered i t kind id length here (startPos kind length here e) e map pool (taken lk true s))) :
    exec c s = .next (s.served lk 0x06 tag .done f) := by
  obtain ⟨xtrack, -⟩ := taken_reads lk true s
  obtain ⟨-, -, -, hfree'⟩ := taken_store hfree lk
  have hexec := execOpen_starts hacc.check hb lk
  rw [startPass_entered (h.taken lk) ((congrArg Track.redo (xtrack t)).trans hredo) hfree' hs] at hexec
  exact exec_atOnce (f := f) (rc := .done) hacc htime (hexec.trans (congrArg (·, ReplyCode.done) hf.symm))

/-- Settles O23: each start through `exec_entered`, the refused one through `startPass_of_unsettled`, and the one that
frees its redo list through `freeRedo_freed`. -/
theorem passOpenMeasures : Obligations.PassOpenMeasures := by
  refine ⟨?_, ?_, ?_, ?_⟩
  · intro s lk tag input track quantize mode i t id pg rest h hold hi ht hq hn hc hp hte hstack hredo hfree hpg hlow
    have hacc := accepted_open h hold hi ht hq hn (State.openCheck_none (.inl hc) hp (by simp [hte]) (by simp [hstack]))
    obtain ⟨xcyc, xlys, xpgp, xpse, -⟩ := taken_fields lk true s
    obtain ⟨xtrack, -⟩ := taken_reads lk true s
    have hkind : startsAs s t .measure none 0 := ⟨by simp [State.kindFor, hc], by simp, rfl⟩
    refine exec_entered hacc (State.timing_open_unset hc lk i t mode) (by simp [State.offBoundary, hc]) hkind hredo hfree
      (settlePages_single_still (xpgp ▸ hpg) (xpgp ▸ hlow)) ?_
    simp only [entered, startPos, ← xcyc, ← xpgp, ← xlys, ← xpse, xtrack, hte, hstack]
    generalize taken lk true s = x
    rfl
  · intro s lk tag input track quantize mode i t id pg rest p l h hold hi ht hq hn hc hpos hlen hg hp256 hp hte hstack hredo
      hfree hpg hlow
    have hacc := accepted_open h hold hi ht hq hn (State.openCheck_none (.inr hc) hp (by simp [hte]) (by simp [hstack]))
    have htime := State.timing_open_grace hc (t := t) (by simp [hte]) hpos hlen hg i mode
    obtain ⟨xcyc, xlys, xpgp, xpse, -⟩ := taken_fields lk true s
    obtain ⟨xtrack, -⟩ := taken_reads lk true s
    have hkind : startsAs s t .opening none p :=
      ⟨by simp [State.kindFor, hc, hte], by simp, by simp [State.herePos, hpos]⟩
    have hsettle : settlePages id p p 240000 (formRecord i t none id (taken lk true s)) =
        (((formRecord i t none id (taken lk true s)).withPgp
          { s.pgp with free := rest, lowest := min s.pgp.lowest rest.length }).withLayer id
          (some (.forPass i t none (taken lk true s).lys.serials 0 0 [(0, pg)])), some p) := by
      obtain rfl | hp1 := Nat.eq_zero_or_pos p
      · rw [settlePages_single_still (xpgp ▸ hpg) (xpgp ▸ hlow), xpgp]
      · have hslots : touchedSlots ((p + 240000 - p) % 240000) p 240000 = [0] := by
          rw [Nat.add_sub_cancel_left]
          exact touchedSlots_opening hp256
        rw [settlePages_group hp1 hslots (by simp [xpgp, hpg]) (by simpa [xpgp, hpg] using hlow), xpgp]
        simp [hpg]
    refine exec_entered hacc htime (by simp [State.offBoundary, hpos]) hkind hredo hfree hsettle ?_
    simp only [entered, startPos, ← xcyc, ← xlys, ← xpse, xtrack, hte, hstack]
    generalize taken lk true s = x
    rfl
  · intro s lk tag input track quantize mode i t id d q len h hold hi ht hq hn hc hp hts hstack hredo hfree htime hq' hlen
      hqlt hd opened
    have hacc := accepted_open h hold hi ht hq hn (State.openCheck_none (.inr hc) hp (by simp [hts]) hstack)
    have hoff : s.offBoundary t d = false := by simp [State.offBoundary, hts]
    obtain ⟨xcyc, xlys, xpgp, xpse, -⟩ := taken_fields lk true s
    obtain ⟨xtrack, xlayer, -⟩ := taken_reads lk true s
    have hkind : startsAs s t .fixed (some len) q :=
      ⟨by simp [State.kindFor, hc, hts], by simp [hlen], by simp [State.herePos, hq']⟩
    obtain ⟨hnone, hreclaim, -⟩ := taken_store hfree lk
    have hopened : ∀ {e : Nat} {map : List (Nat × Page)} {pool : Pgp},
        settlePages id q d len (formRecord i t (some len) id (taken lk true s)) =
          (((formRecord i t (some len) id (taken lk true s)).withPgp pool).withLayer id
            (some (.forPass i t (some len) (taken lk true s).lys.serials 0 0 map)), some e) →
        exec (.passOpen lk tag input track quantize) s = .next (opened ((q + len - e) % len) e map pool) := by
      intro e map pool hs
      refine exec_entered hacc htime hoff hkind hredo hfree hs ?_
      simp only [entered, startPos, ← xlys, ← xpse, xtrack, hts]
      generalize taken lk true s = x
      rfl
    have hhere : (q + len - 0) % len = q := by
      rw [Nat.sub_zero, Nat.add_mod_right, Nat.mod_eq_of_lt hqlt]
    refine ⟨?_, fun hd1 => ?_, ?_⟩
    · rintro rfl pg rest hpg hlow
      have := hopened (settlePages_single_still (xpgp ▸ hpg) (xpgp ▸ hlow))
      rwa [hhere, xpgp] at this
    · refine ⟨touchedSlots ((q + len - d) % len) d len, (touchedSlots_spec ..).1, (touchedSlots_spec ..).2,
        fun hle hlow => ?_, fun pg rest hshort hpg hlow => ?_⟩
      · have := hopened (settlePages_group hd1 rfl (xpgp ▸ hle) (xpgp ▸ hlow))
        rwa [xpgp] at this
      · have := hopened (settlePages_short hd1 hnone (by rw [hreclaim, xpgp]; exact hshort) (xpgp ▸ hpg) (xpgp ▸ hlow))
        rwa [hhere, xpgp] at this
    · rintro rfl hpg hvictim hne hid
      refine exec_noRoom hacc htime hoff hkind hredo hfree hpg hvictim hne hid ?_
      simp only [← xlys, ← xpgp]
      generalize taken lk true s = x
      rfl
  · intro s lk tag input track quantize i t pg rest h hold hi ht hq hn hc hp hts hstack hnodup hapart hown gone hne hpages
    have hacc := accepted_open h hold hi ht hq hn (State.openCheck_none (.inr hc) hp (by simp [hts]) hstack)
    have htime := State.timing_open_now hc hts lk i
    have hoff : s.offBoundary t 0 = false := by simp [State.offBoundary, hts]
    obtain ⟨-, xlys, xpgp, -⟩ := taken_fields lk true s
    obtain ⟨xtrack, xlayer, -⟩ := taken_reads lk true s
    have hmem : ∀ {id}, id ∈ gone → id ∈ (s.track t).redo := fun hid => List.mem_of_mem_filter hid
    have hgone : (taken lk true s).havingPin false ((taken lk true s).track t).redo = gone := by
      simp [State.havingPin, xtrack, xlayer, gone]
    have hpagesOf : (taken lk true s).pagesOf = s.pagesOf := by
      funext k
      simp only [State.pagesOf, xlayer]
    have hkind : startsAs (taken lk true s) t .fixed _ _ :=
      startsAs.taken (s := s) ⟨by simp [State.kindFor, hc, hts], rfl, rfl⟩ lk
    obtain ⟨id, u, hstart, hfresh⟩ := startPass_fresh (i := i) (pg := pg) (rest := rest) hkind
      (by rw [xtrack]; exact hts) hgone hne (hnodup.filter _) (fun k hk => by rw [xlayer]; exact hown k (hmem hk))
      (fun k hk => by rw [xtrack]; exact hapart k (hmem hk))
      (by rw [xpgp, hpagesOf]; exact hpages)
    have hexec := (execOpen_starts hacc.check hoff lk).trans hstart
    have honly := onlyPasses_startPass i t 0 (taken lk true s)
    rw [hstart] at honly
    obtain ⟨v, hv, ⟨-, vlys, vpgp, -⟩, hr⟩ := exec_atOnce_done hacc htime hexec honly
    have vlayer : ∀ k, v.layer k = u.layer k := State.layer_congr vlys
    obtain ⟨hrecord, hlowest, htrack, hfreed, hothers, hlayer, hfree, hserials⟩ := hfresh
    simp only [xtrack, xlayer, xlys] at hrecord hlowest htrack hothers hlayer hserials
    refine ⟨v, id, hv, hrecord, hlowest, (State.track_congr vlys t).trans htrack,
      fun k hk hne => (vlayer k).trans (hfreed k hk hne), fun k hne hk => (vlayer k).trans (hothers k hne hk), ?_,
      (congrArg Pgp.free vpgp).trans hfree,
      (congrArg Lys.serials vlys).trans hserials, hr⟩
    obtain ⟨l, hl, hstate⟩ := hlayer
    exact ⟨l, (vlayer id).trans hl, hstate⟩

end Sys2Proof.Machine
end

section
/-! PROOFS. LAYER_REDO and TRACK_MUTE (R40, R43), the levels and the route (R44 to R46), and LAYER_PIN (R47, R48, R64). -/

namespace Sys2Proof.Machine

/-! ## LAYER_REDO and TRACK_MUTE -/

/-- An action on a track that has no grace is timed at once outside the modes that wait (R95, R96). -/
theorem State.timing_onTrack {s : State} {lk : Link} {a : Action} {mode : Quantize}
    (ha : s.timingMode a mode = (mode, false)) (hn : ∀ i t, a ≠ .passOpen i t)
    (h : mode = .now ∨ s.cyc.state ≠ .running) : s.timing lk a mode = .atOnce 0 := by
  unfold State.timing
  split
  · exact absurd rfl (hn _ _)
  · next hr =>
    obtain rfl | h := h
    · simp only [ha, State.period]
    · exact absurd hr h
  · rfl

/-- Settles O28: the redo list's tail by `List.getLast?_concat`; the mute is the update itself. -/
theorem redoReturnsTheTail : Obligations.RedoReturnsTheTail := by
  constructor
  · intro s lk tag track quantize mode t h hold ht hq hn hm result
    have hacc : Accepted s lk tag (.layerRedo lk tag track quantize) (.layerRedo t) mode :=
      ⟨h, hold, by simp only [quantizedOf, ht, hq], hn, rfl⟩
    have hexec : ∀ {f : State → State} {rc : ReplyCode}, execRedo t (taken lk true s) = (f (taken lk true s), rc) →
        result = .next (s.served lk 0x09 tag rc f) := fun hx =>
      exec_atOnce (mode := mode) hacc (State.timing_onTrack rfl (fun _ _ e => by cases e) hm) hx
    obtain ⟨xtrack, xlayer, -, -⟩ := taken_reads lk true s
    refine ⟨fun hr => hexec (f := id) (by simp only [execRedo, xtrack, hr, List.getLast?_nil, id]),
      fun hr hs => hexec (f := id) ?_, fun rest id l hr hs hl => hexec ?_⟩
    · simp only [execRedo, xtrack, List.getLast?_eq_some_getLast hr, if_pos hs, id]
    · have hs' : ¬ 12 ≤ (s.track t).stack.length := by omega
      simp only [execRedo, xtrack, hr, List.getLast?_concat, if_neg hs', List.dropLast_concat]
      rw [mapLayer_of_some ((State.withTrack_layer ..).trans ((xlayer id).trans hl))]
  · intro s lk tag track quantize setting mode t on h hold ht hq hs hn hm
    have hacc : Accepted s lk tag (.trackMute lk tag track quantize setting) (.trackMute t on) mode :=
      ⟨h, hold, by simp only [quantizedOf, ht, hq, hs], hn, rfl⟩
    have htime : s.timing lk (.trackMute t on) mode = .atOnce 0 :=
      State.timing_onTrack rfl (fun _ _ e => by cases e) hm
    have hx : execAction (.trackMute t on) 0 (taken lk true s) =
        ((taken lk true s).withTrack t { s.track t with mute := on }, .done) := by
      simp only [execAction, execMute, (taken_reads lk true s).1]
    exact exec_atOnce (f := fun x => x.withTrack t { s.track t with mute := on }) hacc htime hx

/-! ## Levels and the route -/

/-- A request that hold refuses, outside hold: its owner's rule decides (R192). -/
theorem serve_outsideHold {s : State} {lk : Link} {c : Instr} {code tag : Byte} {rc : ReplyCode} {f : State → State}
    {owner rule : State → Answer} (h : s.ready lk c = true) (hold : s.inHold = false)
    (hr : owner (taken lk true s) = outsideHold (taken lk true s) rule)
    (ho : rule (taken lk true s) = answer (f (taken lk true s)) rc)
    (hf : (f (taken lk true s)).cyc = (taken lk true s).cyc) :
    serve lk c code (some tag) true owner s = s.served lk code tag rc f := by
  refine serve_eq_served h ?_ (.of_eq hf)
  rw [hr, outsideHold_of_not (by rw [taken_inHold, hold]), ho]
  rfl

theorem taken_isSource (lk : Link) (e : Bool) (s : State) (id : LayerId) :
    (taken lk e s).isSource id = s.isSource id := by
  obtain ⟨-, -, -, -, -, -, hb, -⟩ := taken_fields lk e s
  simp only [State.isSource, hb]

/-- Settles O31: each owner's rule on the request as it is taken. -/
theorem trackAndLayerLevelsAreSet : Obligations.TrackAndLayerLevelsAreSet := by
  refine ⟨⟨fun s lk tag track level t h hold ht => ?_, fun s lk tag track route t r h hold ht hr => ?_⟩,
    fun s lk tag layer level id h hold hid => ?_⟩
  · refine congrArg Host.Outcome.next (serve_outsideHold h hold (by simp only [ownTrackLevel, ht]; rfl) ?_ rfl)
    simp only [(taken_reads lk true s).1, levelArg]
  · refine congrArg Host.Outcome.next (serve_outsideHold h hold (by simp only [ownTrackRoute, ht, hr]; rfl) ?_ rfl)
    simp only [(taken_reads lk true s).1]
  · intro result
    obtain ⟨-, xlayer, -, -⟩ := taken_reads lk true s
    have hexec : ∀ {f : State → State} {rc : ReplyCode},
        ownLayerLevel layer level (taken lk true s) = answer (f (taken lk true s)) rc →
        (f (taken lk true s)).cyc = (taken lk true s).cyc → result = .next (s.served lk 0x0F tag rc f) :=
      fun ho hf => congrArg Host.Outcome.next (serve_eq_served h ho (.of_eq hf))
    have hx : (taken lk true s).inHold = false := (taken_inHold lk true s).trans hold
    refine ⟨fun hn => hexec ?_ rfl, fun l hl => ⟨fun hf => hexec ?_ rfl, fun hv hs => hexec ?_ rfl,
      fun hf hor => hexec ?_ rfl⟩⟩
    · simp only [ownLayerLevel, hid, outsideHold_of_not hx, xlayer, hn]
    · simp only [ownLayerLevel, hid, outsideHold_of_not hx, xlayer, hl, hf, if_true]
    · simp only [ownLayerLevel, hid, outsideHold_of_not hx, xlayer, hl, hv, taken_isSource, hs]
      rfl
    · have hs : ¬ (decide (l.state = .live) && s.isSource id) = true := by
        obtain hv | hs := hor <;> simp [*]
      simp only [ownLayerLevel, hid, outsideHold_of_not hx, xlayer, hl, if_neg hf, taken_isSource, if_neg hs, levelArg]

/-! ## LAYER_PIN -/

/-- Settles O32: the rows of R47 and R48 as the branches of `pinOn` and `pinOff`. -/
theorem layerPinFollowsTheLimit : Obligations.LayerPinFollowsTheLimit := by
  intro s lk tag layer id hid hold
  obtain ⟨-, xlayer, -, -⟩ := taken_reads lk true s
  obtain ⟨-, -, xpgp, -⟩ := taken_fields lk true s
  have hx : (taken lk true s).inHold = false := (taken_inHold lk true s).trans hold
  constructor
  · intro h result
    have hexec : ∀ {f : State → State} {rc : ReplyCode},
        pinOn id (taken lk true s) = answer (f (taken lk true s)) rc →
        (f (taken lk true s)).cyc = (taken lk true s).cyc → result = .next (s.served lk 0x10 tag rc f) :=
      fun ho hf => congrArg Host.Outcome.next
        (serve_outsideHold h hold (by simp only [ownLayerPin, hid]; rfl) ho hf)
    refine ⟨fun hn => hexec (by simp only [pinOn, xlayer, hn]) rfl, fun l hl => ⟨fun hst => hexec ?_ rfl, fun hst => ?_⟩⟩
    · have hst' : (decide (l.state = .recording) || decide (l.state = .forming)) = true := by simpa using hst
      simp only [pinOn, xlayer, hl, hst', if_true]
    have hst' : (decide (l.state = .recording) || decide (l.state = .forming)) = false := by
      obtain hst | hst := hst <;> simp [hst]
    refine ⟨fun hs => hexec ?_ rfl, fun hs => ⟨fun hp => hexec ?_ rfl, fun hp hlim => hexec ?_ rfl,
      fun hp hlim => hexec ?_ rfl⟩⟩
    · simp only [pinOn, xlayer, hl, hst', taken_isSource, hs, if_true]
      rfl
    · simp only [pinOn, xlayer, hl, hst', taken_isSource, hs, hp, if_true]
      rfl
    · simp only [pinOn, xlayer, xpgp, hl, hst', taken_isSource, hs, hp, if_pos hlim]
      rfl
    · have hlim' : ¬ 3072 < s.pgp.pinnedTotal + l.map.length := by omega
      simp only [pinOn, xlayer, xpgp, hl, hst', taken_isSource, hs, hp, if_neg hlim']
      rfl
  · intro h result
    have hexec : ∀ {f : State → State} {rc : ReplyCode},
        pinOff id (taken lk true s) = answer (f (taken lk true s)) rc →
        (f (taken lk true s)).cyc = (taken lk true s).cyc → result = .next (s.served lk 0x10 tag rc f) :=
      fun ho hf => congrArg Host.Outcome.next
        (serve_outsideHold h hold (by simp only [ownLayerPin, hid]; rfl) ho hf)
    refine ⟨fun hn => hexec (by simp only [pinOff, xlayer, hn]) rfl, fun l hl => ⟨fun hp => hexec ?_ rfl,
      fun hp => hexec ?_ rfl⟩⟩
    · simp only [pinOff, xlayer, hl, hp]
      rfl
    · simp only [pinOff, xlayer, xpgp, hl, hp, if_true]

end Sys2Proof.Machine
end

section
/-! PROOFS. The layer store as the invariants of R29, R31, R51, R64 and R75 read it: who stands in which list, the records
and their pages, the passes and the bounce that hold them. -/

namespace Sys2Proof.Machine

/-- What the invariants read of a layer record that is not FREE. -/
@[ext] structure Record where
  state : LayerState
  track : TrackId
  pinned : Bool
  stamp : Option Nat
  /-- the pages of its page map -/
  pages : Multiset Page

/-- What the invariants read of the active bounce (R132). -/
structure Holding where
  track : TrackId
  sources : List LayerId
  dest : Option LayerId

/-- What the invariants read of the hub. -/
@[ext] structure Store where
  stack : TrackId → List LayerId
  redo : TrackId → List LayerId
  layer : LayerId → Option Record
  parks : Nat
  pinnedTotal : Nat
  /-- the pages in no page map: the free list's and the reservation's -/
  loose : Multiset Page
  /-- the layer and the track of each open pass -/
  pass : Input → Option (LayerId × TrackId)
  idle : Bool
  active : Option Holding
  /-- the counts of the waiting bounces -/
  waiting : List Nat

def Layer.record (l : Layer) : Record where
  state := l.state
  track := l.track
  pinned := l.pinned
  stamp := l.stamp
  pages := ↑(l.map.map (·.2))

def Bounce.holding (b : Bounce) : Holding where
  track := b.track
  sources := b.sources.map (·.layer)
  dest := b.dest

/-- The store of a state. -/
def State.store (s : State) : Store where
  stack t := (s.track t).stack
  redo t := (s.track t).redo
  layer id := (s.layer id).map Layer.record
  parks := s.lys.parks
  pinnedTotal := s.pgp.pinnedTotal
  loose := ↑(s.pgp.free ++ s.pgp.reserved)
  pass i := (s.pass i).map fun p => (p.layer, p.track)
  idle := s.bne.engine = .idle
  active := s.bne.active.map Bounce.holding
  waiting := s.bne.waiting.map (·.count)

/-! ## The invariants of a store -/

def Store.pagesOf (σ : Store) (id : LayerId) : Multiset Page := (σ.layer id).elim 0 Record.pages

/-- The pages that a record's pin holds (R64). -/
def Record.pinnedPages (r : Record) : Nat := if r.pinned then Multiset.card r.pages else 0

def Store.pinnedPages (σ : Store) (id : LayerId) : Nat := (σ.layer id).elim 0 Record.pinnedPages

/-- Every page of the store, as often as it stands in it (R51). -/
def Store.placed (σ : Store) : Multiset Page := σ.loose + ∑ id, σ.pagesOf id

/-- Each page once. -/
def everyPage : Multiset Page := ↑((List.range 4096).map (Fin.ofNat 4096))

/-- R29. -/
structure Store.Listed (σ : Store) : Prop where
  stack_le : ∀ t, (σ.stack t).length ≤ 12
  redo_le : ∀ t, (σ.redo t).length ≤ 12
  stack_nodup : ∀ t, (σ.stack t).Nodup
  redo_nodup : ∀ t, (σ.redo t).Nodup
  mem_stack : ∀ t id, id ∈ σ.stack t ↔
    ∃ r, σ.layer id = some r ∧ r.track = t ∧ (r.state = .recording ∨ r.state = .live)
  mem_redo : ∀ t id, id ∈ σ.redo t ↔ ∃ r, σ.layer id = some r ∧ r.track = t ∧ r.state = .parked

/-- R31. -/
structure Store.Stamped (σ : Store) : Prop where
  parks_le : σ.parks ≤ 4294967295
  below : ∀ id r, σ.layer id = some r → r.state = .parked → ∃ n, r.stamp = some n ∧ n < σ.parks
  distinct : ∀ id id' r r', σ.layer id = some r → r.state = .parked → σ.layer id' = some r' → r'.state = .parked →
    r.stamp = r'.stamp → id = id'

/-- R64. -/
structure Store.Pinned (σ : Store) : Prop where
  total : σ.pinnedTotal = ∑ id, σ.pinnedPages id
  le : σ.pinnedTotal ≤ 3072
  states : ∀ id r, σ.layer id = some r → r.pinned = true → r.state = .live ∨ r.state = .parked

/-- R75. -/
structure Store.Held (σ : Store) : Prop where
  recording : ∀ i id t, σ.pass i = some (id, t) →
    ∃ r, σ.layer id = some r ∧ r.state = .recording ∧ r.track = t
  once : ∀ i j id t u, σ.pass i = some (id, t) → σ.pass j = some (id, u) → j = i
  passed : ∀ id r, σ.layer id = some r → r.state = .recording → ∃ i t, σ.pass i = some (id, t)

/-- R35, R132, R134. -/
structure Store.Bounced (σ : Store) : Prop where
  formed : ∀ id r, σ.layer id = some r → r.state = .forming → ∃ b, σ.active = some b ∧ b.dest = some id
  rest : σ.idle = true → σ.active = none
  dest : ∀ b id, σ.active = some b → b.dest = some id →
    ∃ r, σ.layer id = some r ∧ r.state = .forming ∧ r.track = b.track
  sources : ∀ b, σ.active = some b → b.sources ≠ [] ∧ b.sources.Nodup
  live : ∀ b id, σ.active = some b → id ∈ b.sources →
    ∃ r, σ.layer id = some r ∧ r.state = .live ∧ r.track = b.track ∧ r.pinned = false
  waiting : ∀ n ∈ σ.waiting, 2 ≤ n

/-- The store is in order but for what the bounce engine holds. -/
structure Store.Ordered (σ : Store) : Prop where
  listed : σ.Listed
  stamped : σ.Stamped
  pinned : σ.Pinned
  held : σ.Held

structure Store.Legal (σ : Store) : Prop extends σ.Ordered where
  bounced : σ.Bounced

/-! ## The invariants of a state -/

theorem allLayers_eq_finRange : allLayers = List.finRange 48 := by decide

theorem sum_allLayers {M : Type} [AddCommMonoid M] (f : LayerId → M) : (allLayers.map f).sum = ∑ id, f id := by
  rw [allLayers_eq_finRange, Fin.sum_univ_def]

theorem State.store_layer_eq_some {s : State} {id : LayerId} {r : Record} :
    s.store.layer id = some r ↔ ∃ l, s.layer id = some l ∧ l.record = r := Option.map_eq_some_iff

theorem State.store_layer_of {s : State} {id : LayerId} {l : Layer} (h : s.layer id = some l) :
    s.store.layer id = some l.record := congrArg (Option.map Layer.record) h

theorem State.store_pass_of {s : State} {i : Input} {p : Pass} (h : s.pass i = some p) :
    s.store.pass i = some (p.layer, p.track) := by
  simp only [State.store, h, Option.map_some]

theorem State.store_active_of {s : State} {b : Bounce} (h : s.bne.active = some b) :
    s.store.active = some b.holding := congrArg (Option.map Bounce.holding) h

theorem State.store_pagesOf (s : State) (id : LayerId) :
    s.store.pagesOf id = ↑((((s.layer id).map fun l => l.map.map (·.2)).getD [])) := by
  have h : s.store.layer id = (s.layer id).map Layer.record := rfl
  rw [Store.pagesOf, h]
  cases s.layer id <;> rfl

theorem State.store_pinnedPages (s : State) (id : LayerId) :
    s.store.pinnedPages id = ((s.layer id).map fun l => if l.pinned then l.map.length else 0).getD 0 := by
  have h : s.store.layer id = (s.layer id).map Layer.record := rfl
  rw [Store.pinnedPages, h]
  cases s.layer id with
  | none => rfl
  | some l => simp [Record.pinnedPages, Layer.record]

/-- R51 read of the store. -/
theorem State.pagesPlaced_iff (s : State) : s.pagesPlaced ↔ s.store.placed = everyPage := by
  have hmap : (↑s.mappedPages : Multiset Page) = ∑ id, s.store.pagesOf id := by
    rw [← sum_allLayers, State.mappedPages]
    induction allLayers with
    | nil => rfl
    | cons id ids ih => rw [List.flatMap_cons, ← Multiset.coe_add, ih, List.map_cons, List.sum_cons, State.store_pagesOf]
  rw [State.pagesPlaced, ← Multiset.coe_eq_coe, ← Multiset.coe_add, hmap]
  rfl

/-- R29 read of the store. -/
theorem State.layersListed_iff (s : State) : s.layersListed ↔ s.store.Listed := by
  constructor
  · rintro ⟨hlists, hback⟩
    refine ⟨fun t => (hlists t).1, fun t => (hlists t).2.1, fun t => (hlists t).2.2.1, fun t => (hlists t).2.2.2.1,
      fun t id => ⟨fun h => ?_, fun ⟨r, hr, ht, hst⟩ => ?_⟩, fun t id => ⟨fun h => ?_, fun ⟨r, hr, ht, hst⟩ => ?_⟩⟩
    · obtain ⟨l, hl, ht, hst⟩ := (hlists t).2.2.2.2.1 id h
      exact ⟨_, State.store_layer_of hl, ht, hst⟩
    · obtain ⟨l, hl, rfl⟩ := State.store_layer_eq_some.1 hr
      exact ht ▸ (hback id l hl).1 hst
    · obtain ⟨l, hl, ht, hst⟩ := (hlists t).2.2.2.2.2 id h
      exact ⟨_, State.store_layer_of hl, ht, hst⟩
    · obtain ⟨l, hl, rfl⟩ := State.store_layer_eq_some.1 hr
      exact ht ▸ (hback id l hl).2 hst
  · intro h
    refine ⟨fun t => ⟨h.stack_le t, h.redo_le t, h.stack_nodup t, h.redo_nodup t, fun id hid => ?_, fun id hid => ?_⟩,
      fun id l hl => ⟨fun hst => ?_, fun hst => ?_⟩⟩
    · obtain ⟨r, hr, ht, hst⟩ := (h.mem_stack t id).1 hid
      obtain ⟨l, hl, rfl⟩ := State.store_layer_eq_some.1 hr
      exact ⟨l, hl, ht, hst⟩
    · obtain ⟨r, hr, ht, hst⟩ := (h.mem_redo t id).1 hid
      obtain ⟨l, hl, rfl⟩ := State.store_layer_eq_some.1 hr
      exact ⟨l, hl, ht, hst⟩
    · exact (h.mem_stack _ id).2 ⟨_, State.store_layer_of hl, rfl, hst⟩
    · exact (h.mem_redo _ id).2 ⟨_, State.store_layer_of hl, rfl, hst⟩

/-- R31 read of the store. -/
theorem State.stampsBelow_iff (s : State) : s.stampsBelow ↔ s.store.Stamped := by
  constructor
  · rintro ⟨hle, hall⟩
    refine ⟨hle, fun id r hr hst => ?_, fun id id' r r' hr hst hr' hst' he => ?_⟩
    · obtain ⟨l, hl, rfl⟩ := State.store_layer_eq_some.1 hr
      obtain ⟨n, hn, hlt, -⟩ := hall id l hl hst
      exact ⟨n, hn, hlt⟩
    · obtain ⟨l, hl, rfl⟩ := State.store_layer_eq_some.1 hr
      obtain ⟨l', hl', rfl⟩ := State.store_layer_eq_some.1 hr'
      obtain ⟨n, hn, -, hone⟩ := hall id l hl hst
      exact (hone id' l' hl' hst' (he.symm.trans hn)).symm
  · intro h
    refine ⟨h.parks_le, fun id l hl hst => ?_⟩
    obtain ⟨n, hn, hlt⟩ := h.below id _ (State.store_layer_of hl) hst
    exact ⟨n, hn, hlt, fun id' l' hl' hst' hn' => h.distinct id' id _ _ (State.store_layer_of hl') hst'
      (State.store_layer_of hl) hst (hn'.trans hn.symm)⟩

/-- R64 read of the store. -/
theorem State.pinsCounted_iff (s : State) : s.pinsCounted ↔ s.store.Pinned := by
  have hsum : (allLayers.map fun id => ((s.layer id).map fun l => if l.pinned then l.map.length else 0).getD 0).sum =
      ∑ id, s.store.pinnedPages id := by
    rw [sum_allLayers]
    exact Finset.sum_congr rfl fun id _ => (s.store_pinnedPages id).symm
  unfold State.pinsCounted
  rw [hsum]
  constructor
  · rintro ⟨htotal, hle, hst⟩
    refine ⟨htotal, hle, fun id r hr hp => ?_⟩
    obtain ⟨l, hl, rfl⟩ := State.store_layer_eq_some.1 hr
    exact hst id l hl hp
  · intro h
    exact ⟨h.total, h.le, fun id l hl hp => h.states id _ (State.store_layer_of hl) hp⟩

/-- R75, R35, R132 and R134 read of the store. -/
theorem State.holdersAgree_iff (s : State) : s.holdersAgree ↔ s.store.Held ∧ s.store.Bounced := by
  have hpass : ∀ {i : Input} {id : LayerId} {t : TrackId}, s.store.pass i = some (id, t) ↔
      ∃ p, s.pass i = some p ∧ p.layer = id ∧ p.track = t := by
    intro i id t
    simp [State.store]
  have hactive : ∀ {h : Holding}, s.store.active = some h ↔ ∃ b, s.bne.active = some b ∧ b.holding = h :=
    Option.map_eq_some_iff
  constructor
  · rintro ⟨hp, hrec, hform, hidle, hact, hwait⟩
    refine ⟨⟨fun i id t h => ?_, fun i j id t u h k => ?_, fun id r hr hst => ?_⟩,
      ⟨fun id r hr hst => ?_, fun h => ?_, fun h id hh hd => ?_, fun h hh => ?_, fun h id hh hid => ?_, fun n hn => ?_⟩⟩
    · obtain ⟨p, hpi, rfl, rfl⟩ := hpass.1 h
      obtain ⟨⟨l, hl, hst, ht⟩, -⟩ := hp i p hpi
      exact ⟨_, State.store_layer_of hl, hst, ht⟩
    · obtain ⟨p, hpi, rfl, rfl⟩ := hpass.1 h
      obtain ⟨q, hqj, hq, rfl⟩ := hpass.1 k
      exact (hp i p hpi).2 j q hqj hq
    · obtain ⟨l, hl, rfl⟩ := State.store_layer_eq_some.1 hr
      obtain ⟨i, p, hpi, rfl⟩ := hrec id l hl hst
      exact ⟨i, _, State.store_pass_of hpi⟩
    · obtain ⟨l, hl, rfl⟩ := State.store_layer_eq_some.1 hr
      obtain ⟨b, hb, hd⟩ := hform id l hl hst
      exact ⟨_, State.store_active_of hb, hd⟩
    · have := hidle (of_decide_eq_true h)
      simp [State.store, this]
    · obtain ⟨b, hb, rfl⟩ := hactive.1 hh
      obtain ⟨l, hl, hst, ht⟩ := (hact b hb).1 id hd
      exact ⟨_, State.store_layer_of hl, hst, ht⟩
    · obtain ⟨b, hb, rfl⟩ := hactive.1 hh
      exact ⟨by simpa [Bounce.holding] using (hact b hb).2.1, (hact b hb).2.2.1⟩
    · obtain ⟨b, hb, rfl⟩ := hactive.1 hh
      obtain ⟨x, hx, rfl⟩ := List.mem_map.1 hid
      obtain ⟨l, hl, hst, ht, hpin⟩ := (hact b hb).2.2.2 x hx
      exact ⟨_, State.store_layer_of hl, hst, ht, hpin⟩
    · obtain ⟨w, hw, rfl⟩ := List.mem_map.1 hn
      exact hwait w hw
  · rintro ⟨hh, hb⟩
    refine ⟨fun i p hpi => ⟨?_, fun j q hqj hq => ?_⟩, fun id l hl hst => ?_, fun id l hl hst => ?_, fun he => ?_,
      fun b hact => ⟨fun id hd => ?_, ?_, ?_, fun x hx => ?_⟩, fun w hw => hb.waiting _ (List.mem_map_of_mem hw)⟩
    · obtain ⟨r, hr, hst, ht⟩ := hh.recording i _ _ (State.store_pass_of hpi)
      obtain ⟨l, hl, rfl⟩ := State.store_layer_eq_some.1 hr
      exact ⟨l, hl, hst, ht⟩
    · exact hh.once i j p.layer _ _ (State.store_pass_of hpi) (hq ▸ State.store_pass_of hqj)
    · obtain ⟨i, t, hi⟩ := hh.passed id _ (State.store_layer_of hl) hst
      obtain ⟨p, hpi, hid, -⟩ := hpass.1 hi
      exact ⟨i, p, hpi, hid⟩
    · obtain ⟨h, hact, hd⟩ := hb.formed id _ (State.store_layer_of hl) hst
      obtain ⟨b, hb', rfl⟩ := hactive.1 hact
      exact ⟨b, hb', hd⟩
    · exact Option.map_eq_none_iff.1 (hb.rest (decide_eq_true he))
    · obtain ⟨r, hr, hst, ht⟩ := hb.dest _ id (State.store_active_of hact) hd
      obtain ⟨l, hl, rfl⟩ := State.store_layer_eq_some.1 hr
      exact ⟨l, hl, hst, ht⟩
    · simpa [Bounce.holding] using (hb.sources _ (State.store_active_of hact)).1
    · exact (hb.sources _ (State.store_active_of hact)).2
    · obtain ⟨r, hr, hst, ht, hpin⟩ := hb.live _ x.layer (State.store_active_of hact) (List.mem_map_of_mem hx)
      obtain ⟨l, hl, rfl⟩ := State.store_layer_eq_some.1 hr
      exact ⟨l, hl, hst, ht, hpin⟩

theorem State.storeLegal_iff (s : State) : s.storeLegal ↔ s.store.Legal := by
  unfold State.storeLegal
  rw [State.layersListed_iff, State.stampsBelow_iff, State.pinsCounted_iff, State.holdersAgree_iff]
  exact ⟨fun ⟨h1, h2, h3, h4, h5⟩ => ⟨⟨h1, h2, h3, h4⟩, h5⟩, fun h => ⟨h.listed, h.stamped, h.pinned, h.held, h.bounced⟩⟩

end Sys2Proof.Machine
end

section
/-! PROOFS. What an operation can do to the store, and that it keeps the store in order: a record changed in place, a
layer dropped, parked or returned, a pass entered or ended, a bounce started or ended. -/

namespace Sys2Proof.Machine

open Function (update update_apply)

/-- A sum over the records of which one summand changes. -/
theorem sum_change {M : Type} [AddCommMonoid M] {f g : LayerId → M} (id : LayerId) (h : ∀ k, k ≠ id → f k = g k) :
    ∑ k, f k + g id = ∑ k, g k + f id := by
  rw [← Finset.sum_erase_add _ f (Finset.mem_univ id), ← Finset.sum_erase_add _ g (Finset.mem_univ id),
    Finset.sum_congr rfl fun k hk => h k (Finset.ne_of_mem_erase hk)]
  exact add_right_comm _ _ _

/-! ## A record changed in place -/

/-- The record `id`, where it is not FREE, changed by `f`. -/
def Store.mapRecord (σ : Store) (id : LayerId) (f : Record → Record) : Store :=
  { σ with layer := update σ.layer id ((σ.layer id).map f) }

theorem Store.mapRecord_layer {σ : Store} {id : LayerId} {f : Record → Record} {k : LayerId} {r : Record} :
    (σ.mapRecord id f).layer k = some r ↔
      (k ≠ id ∧ σ.layer k = some r) ∨ k = id ∧ ∃ x, σ.layer id = some x ∧ f x = r := by
  simp only [Store.mapRecord, update_apply]
  split
  · next e => simp [e]
  · next e => simp [e]

/-- A record's place in the lists is its track and its state. -/
theorem Store.Listed.mapRecord {σ : Store} (h : σ.Listed) {id : LayerId} {f : Record → Record}
    (hf : ∀ r, σ.layer id = some r → (f r).track = r.track ∧
      ((f r).state = .recording ∨ (f r).state = .live ↔ r.state = .recording ∨ r.state = .live) ∧
      ((f r).state = .parked ↔ r.state = .parked)) : (σ.mapRecord id f).Listed := by
  refine ⟨h.stack_le, h.redo_le, h.stack_nodup, h.redo_nodup, fun t k => (h.mem_stack t k).trans ?_,
    fun t k => (h.mem_redo t k).trans ?_⟩
  all_goals
    by_cases hk : k = id
    · subst hk
      simp only [Store.mapRecord_layer, ne_eq, not_true, false_and, true_and, false_or]
      constructor
      · rintro ⟨r, hr, ht, hst⟩
        obtain ⟨f1, f2, f3⟩ := hf r hr
        exact ⟨f r, ⟨r, hr, rfl⟩, f1.trans ht, by tauto⟩
      · rintro ⟨_, ⟨r, hr, rfl⟩, ht, hst⟩
        obtain ⟨f1, f2, f3⟩ := hf r hr
        exact ⟨r, hr, f1.symm.trans ht, by tauto⟩
    · simp [Store.mapRecord_layer, hk]

theorem Store.Stamped.mapRecord {σ : Store} (h : σ.Stamped) {id : LayerId} {f : Record → Record}
    (hf : ∀ r, σ.layer id = some r → (f r).state = .parked → r.state = .parked ∧ (f r).stamp = r.stamp) :
    (σ.mapRecord id f).Stamped := by
  have back : ∀ k r, (σ.mapRecord id f).layer k = some r → r.state = .parked →
      ∃ x, σ.layer k = some x ∧ x.state = .parked ∧ r.stamp = x.stamp := by
    intro k r hr hst
    obtain ⟨-, hr⟩ | ⟨rfl, x, hx, rfl⟩ := Store.mapRecord_layer.1 hr
    · exact ⟨r, hr, hst, rfl⟩
    · exact ⟨x, hx, hf x hx hst⟩
  refine ⟨h.parks_le, fun k r hr hst => ?_, fun k k' r r' hr hst hr' hst' he => ?_⟩
  · obtain ⟨x, hx, hxs, hn⟩ := back k r hr hst
    rw [hn]
    exact h.below k x hx hxs
  · obtain ⟨x, hx, hxs, hn⟩ := back k r hr hst
    obtain ⟨x', hx', hxs', hn'⟩ := back k' r' hr' hst'
    exact h.distinct k k' x x' hx hxs hx' hxs' (by rw [← hn, ← hn', he])

/-- A change of a record that is not pinned and is not pinned by it. -/
theorem Store.Pinned.mapRecord {σ : Store} (h : σ.Pinned) {id : LayerId} {f : Record → Record}
    (hf : ∀ r, σ.layer id = some r → (r.pinned = true → f r = r) ∧ (r.pinned = false → (f r).pinned = false)) :
    (σ.mapRecord id f).Pinned := by
  have same : ∀ r, σ.layer id = some r → (f r).pinned = true → f r = r := by
    intro r hr hp
    cases hpin : r.pinned with
    | true => exact (hf r hr).1 hpin
    | false => rw [(hf r hr).2 hpin] at hp; cases hp
  refine ⟨h.total.trans (Finset.sum_congr rfl fun k _ => ?_), h.le, fun k r hr hp => ?_⟩
  · by_cases hk : k = id
    · subst hk
      simp only [Store.pinnedPages, Store.mapRecord, Function.update_self]
      cases hr : σ.layer k with
      | none => rfl
      | some r =>
        obtain ⟨f1, f2⟩ := hf r hr
        simp only [Option.map_some, Option.elim_some, Record.pinnedPages]
        cases hpin : r.pinned with
        | true => rw [f1 hpin, hpin]
        | false => rw [f2 hpin]; rfl
    · simp only [Store.pinnedPages, Store.mapRecord, Function.update_of_ne hk]
  · obtain ⟨-, hr⟩ | ⟨rfl, x, hx, rfl⟩ := Store.mapRecord_layer.1 hr
    · exact h.states k r hr hp
    · have he := same x hx hp
      rw [he] at hp ⊢
      exact h.states k x hx hp

theorem Store.Held.mapRecord {σ : Store} (h : σ.Held) {id : LayerId} {f : Record → Record}
    (hf : ∀ r, σ.layer id = some r → ((f r).state = .recording ↔ r.state = .recording) ∧ (f r).track = r.track) :
    (σ.mapRecord id f).Held := by
  refine ⟨fun i k t hi => ?_, h.once, fun k r hr hst => ?_⟩
  · obtain ⟨r, hr, hst, ht⟩ := h.recording i k t hi
    by_cases hk : k = id
    · subst hk
      exact ⟨f r, Store.mapRecord_layer.2 (.inr ⟨rfl, r, hr, rfl⟩), (hf r hr).1.2 hst, (hf r hr).2.trans ht⟩
    · exact ⟨r, Store.mapRecord_layer.2 (.inl ⟨hk, hr⟩), hst, ht⟩
  · obtain ⟨-, hr⟩ | ⟨rfl, x, hx, rfl⟩ := Store.mapRecord_layer.1 hr
    · exact h.passed k r hr hst
    · exact h.passed k x hx ((hf x hx).1.1 hst)

theorem Store.Bounced.mapRecord {σ : Store} (h : σ.Bounced) {id : LayerId} {f : Record → Record}
    (hf : ∀ r, σ.layer id = some r → ((f r).state = .forming ↔ r.state = .forming) ∧ (f r).track = r.track ∧
      (r.state = .live → r.pinned = false → (∃ b, σ.active = some b ∧ id ∈ b.sources) →
        (f r).state = .live ∧ (f r).pinned = false)) :
    (σ.mapRecord id f).Bounced := by
  refine ⟨fun k r hr hst => ?_, h.rest, fun b k hb hd => ?_, h.sources, fun b k hb hk => ?_, h.waiting⟩
  · obtain ⟨-, hr⟩ | ⟨rfl, x, hx, rfl⟩ := Store.mapRecord_layer.1 hr
    · exact h.formed k r hr hst
    · exact h.formed k x hx ((hf x hx).1.1 hst)
  · obtain ⟨r, hr, hst, ht⟩ := h.dest b k hb hd
    by_cases hk : k = id
    · subst hk
      obtain ⟨f1, f2, -⟩ := hf r hr
      exact ⟨f r, Store.mapRecord_layer.2 (.inr ⟨rfl, r, hr, rfl⟩), f1.2 hst, f2.trans ht⟩
    · exact ⟨r, Store.mapRecord_layer.2 (.inl ⟨hk, hr⟩), hst, ht⟩
  · obtain ⟨r, hr, hst, ht, hp⟩ := h.live b k hb hk
    by_cases hid : k = id
    · subst hid
      obtain ⟨-, f2, f3⟩ := hf r hr
      obtain ⟨f3, f4⟩ := f3 hst hp ⟨b, hb, hk⟩
      exact ⟨f r, Store.mapRecord_layer.2 (.inr ⟨rfl, r, hr, rfl⟩), f3, f2.trans ht, f4⟩
    · exact ⟨r, Store.mapRecord_layer.2 (.inl ⟨hid, hr⟩), hst, ht, hp⟩

/-! ## A layer dropped (R30) -/

/-- A layer leaves its list and its record is FREE; its pin leaves the total, and its pages go loose. -/
def Store.drop (σ : Store) (id : LayerId) : Store :=
  match σ.layer id with
  | none => σ
  | some r =>
    { σ with
      stack := update σ.stack r.track ((σ.stack r.track).filter (· ≠ id))
      redo := update σ.redo r.track ((σ.redo r.track).filter (· ≠ id))
      layer := update σ.layer id none
      pinnedTotal := if r.pinned then σ.pinnedTotal - Multiset.card r.pages else σ.pinnedTotal
      loose := σ.loose + r.pages }

theorem Store.drop_of_none {σ : Store} {id : LayerId} (h : σ.layer id = none) : σ.drop id = σ := by
  simp only [Store.drop, h]

theorem Store.drop_layer (σ : Store) (id : LayerId) : (σ.drop id).layer = update σ.layer id none := by
  unfold Store.drop
  split
  · next h => rw [← h, Function.update_eq_self]
  · rfl

theorem Store.drop_layer_eq_some {σ : Store} {id k : LayerId} {r : Record} :
    (σ.drop id).layer k = some r ↔ k ≠ id ∧ σ.layer k = some r := by
  rw [Store.drop_layer, update_apply]
  split
  · next e => simp [e]
  · next e => simp [e]

/-- Neither passes, bounces nor the park counter change. -/
theorem Store.drop_frame (σ : Store) (id : LayerId) : (σ.drop id).pass = σ.pass ∧ (σ.drop id).active = σ.active ∧
    (σ.drop id).idle = σ.idle ∧ (σ.drop id).waiting = σ.waiting ∧ (σ.drop id).parks = σ.parks := by
  unfold Store.drop
  split
  · exact ⟨rfl, rfl, rfl, rfl, rfl⟩
  · exact ⟨rfl, rfl, rfl, rfl, rfl⟩

/-- The lists without the layer: it stands in those of its own track alone. -/
theorem Store.Listed.drop_lists {σ : Store} (h : σ.Listed) (id : LayerId) (t : TrackId) :
    (σ.drop id).stack t = (σ.stack t).filter (· ≠ id) ∧ (σ.drop id).redo t = (σ.redo t).filter (· ≠ id) := by
  have absent : (∀ r, σ.layer id = some r → r.track ≠ t) →
      (σ.stack t).filter (· ≠ id) = σ.stack t ∧ (σ.redo t).filter (· ≠ id) = σ.redo t := by
    intro hn
    constructor
    · refine List.filter_eq_self.2 fun k hk => decide_eq_true fun e => ?_
      obtain ⟨r, hr, ht, -⟩ := (h.mem_stack t k).1 hk
      exact hn r (e ▸ hr) ht
    · refine List.filter_eq_self.2 fun k hk => decide_eq_true fun e => ?_
      obtain ⟨r, hr, ht, -⟩ := (h.mem_redo t k).1 hk
      exact hn r (e ▸ hr) ht
  cases hr : σ.layer id with
  | none =>
    obtain ⟨h1, h2⟩ := absent fun r e => by rw [hr] at e; cases e
    rw [Store.drop_of_none hr]
    exact ⟨h1.symm, h2.symm⟩
  | some r =>
    simp only [Store.drop, hr, update_apply]
    split
    · next e => rw [e]; exact ⟨rfl, rfl⟩
    · next e =>
      obtain ⟨h1, h2⟩ := absent fun x hx => by rw [hr] at hx; cases hx; exact Ne.symm e
      exact ⟨h1.symm, h2.symm⟩

theorem Store.Listed.drop {σ : Store} (h : σ.Listed) (id : LayerId) : (σ.drop id).Listed := by
  have hs t := (h.drop_lists id t).1
  have hr t := (h.drop_lists id t).2
  refine ⟨fun t => ?_, fun t => ?_, fun t => ?_, fun t => ?_, fun t k => ?_, fun t k => ?_⟩
  · rw [hs]; exact (List.length_filter_le _ _).trans (h.stack_le t)
  · rw [hr]; exact (List.length_filter_le _ _).trans (h.redo_le t)
  · rw [hs]; exact (h.stack_nodup t).filter _
  · rw [hr]; exact (h.redo_nodup t).filter _
  · simp only [hs, List.mem_filter, decide_eq_true_eq, h.mem_stack, Store.drop_layer_eq_some]
    exact ⟨fun ⟨⟨r, hr, ht⟩, hk⟩ => ⟨r, ⟨hk, hr⟩, ht⟩, fun ⟨r, ⟨hk, hr⟩, ht⟩ => ⟨⟨r, hr, ht⟩, hk⟩⟩
  · simp only [hr, List.mem_filter, decide_eq_true_eq, h.mem_redo, Store.drop_layer_eq_some]
    exact ⟨fun ⟨⟨r, hr, ht⟩, hk⟩ => ⟨r, ⟨hk, hr⟩, ht⟩, fun ⟨r, ⟨hk, hr⟩, ht⟩ => ⟨⟨r, hr, ht⟩, hk⟩⟩

theorem Store.Stamped.drop {σ : Store} (h : σ.Stamped) (id : LayerId) : (σ.drop id).Stamped := by
  obtain ⟨-, -, -, -, hp⟩ := σ.drop_frame id
  refine ⟨hp ▸ h.parks_le, fun k r hr hst => ?_, fun k k' r r' hr hst hr' hst' he => ?_⟩
  · rw [hp]
    exact h.below k r (Store.drop_layer_eq_some.1 hr).2 hst
  · exact h.distinct k k' r r' (Store.drop_layer_eq_some.1 hr).2 hst (Store.drop_layer_eq_some.1 hr').2 hst' he

theorem Store.drop_pinnedPages {σ : Store} {id k : LayerId} (hk : k ≠ id) :
    (σ.drop id).pinnedPages k = σ.pinnedPages k := by
  rw [Store.pinnedPages, Store.drop_layer, Function.update_of_ne hk, Store.pinnedPages]

theorem Store.Pinned.drop {σ : Store} (h : σ.Pinned) (id : LayerId) : (σ.drop id).Pinned := by
  have hsum := sum_change id fun k hk => Store.drop_pinnedPages (σ := σ) hk
  have hnone : (σ.drop id).pinnedPages id = 0 := by
    rw [Store.pinnedPages, Store.drop_layer, Function.update_self]
    rfl
  rw [hnone, ← h.total, Nat.add_zero] at hsum
  have htotal : (σ.drop id).pinnedTotal = ∑ k, (σ.drop id).pinnedPages k := by
    cases hr : σ.layer id with
    | none =>
      rw [Store.drop_of_none hr]
      exact h.total
    | some r =>
      have hp : σ.pinnedPages id = r.pinnedPages := by rw [Store.pinnedPages, hr]; rfl
      have hd : (σ.drop id).pinnedTotal =
          if r.pinned then σ.pinnedTotal - Multiset.card r.pages else σ.pinnedTotal := by simp only [Store.drop, hr]
      rw [hp, Record.pinnedPages] at hsum
      rw [hd]
      split at hsum
      · next e => rw [if_pos e]; omega
      · next e => rw [if_neg e]; omega
  exact ⟨htotal, by have := h.le; omega, fun k r hr => h.states k r (Store.drop_layer_eq_some.1 hr).2⟩

theorem Store.Held.drop {σ : Store} (h : σ.Held) {id : LayerId} (hid : ∀ i t, σ.pass i ≠ some (id, t)) :
    (σ.drop id).Held := by
  obtain ⟨hp, -⟩ := σ.drop_frame id
  refine ⟨fun i k t hi => ?_, fun i j k t u hi hj => ?_, fun k r hr hst => ?_⟩
  · rw [hp] at hi
    obtain ⟨r, hr, hst⟩ := h.recording i k t hi
    exact ⟨r, Store.drop_layer_eq_some.2 ⟨fun e => hid i t (e ▸ hi), hr⟩, hst⟩
  · rw [hp] at hi hj
    exact h.once i j k t u hi hj
  · rw [hp]
    exact h.passed k r (Store.drop_layer_eq_some.1 hr).2 hst

/-- No bounce holds the layer: it is no source of the active bounce and not its destination. -/
def Store.unheld (σ : Store) (id : LayerId) : Prop := ∀ b, σ.active = some b → id ∉ b.sources ∧ b.dest ≠ some id

theorem Store.Bounced.drop {σ : Store} (h : σ.Bounced) {id : LayerId} (hid : σ.unheld id) : (σ.drop id).Bounced := by
  obtain ⟨-, ha, hi, hw, -⟩ := σ.drop_frame id
  refine ⟨fun k r hr hst => ?_, fun he => ?_, fun b k hb hd => ?_, fun b hb => ?_, fun b k hb hk => ?_, ?_⟩
  · rw [ha]
    exact h.formed k r (Store.drop_layer_eq_some.1 hr).2 hst
  · rw [ha]
    exact h.rest (hi ▸ he)
  · rw [ha] at hb
    obtain ⟨r, hr, hst⟩ := h.dest b k hb hd
    exact ⟨r, Store.drop_layer_eq_some.2 ⟨fun e => (hid b hb).2 (e ▸ hd), hr⟩, hst⟩
  · exact h.sources b (ha ▸ hb)
  · rw [ha] at hb
    obtain ⟨r, hr, hst⟩ := h.live b k hb hk
    exact ⟨r, Store.drop_layer_eq_some.2 ⟨fun e => (hid b hb).1 (e ▸ hk), hr⟩, hst⟩
  · rw [hw]
    exact h.waiting

/-- A record that no pass is written to and that is not RECORDING goes without disorder. -/
theorem Store.Ordered.drop {σ : Store} (h : σ.Ordered) {id : LayerId} (hid : ∀ i t, σ.pass i ≠ some (id, t)) :
    (σ.drop id).Ordered := ⟨h.listed.drop id, h.stamped.drop id, h.pinned.drop id, h.held.drop hid⟩

theorem Store.Legal.drop {σ : Store} (h : σ.Legal) {id : LayerId} (hp : ∀ i t, σ.pass i ≠ some (id, t))
    (hb : σ.unheld id) : (σ.drop id).Legal := ⟨h.toOrdered.drop hp, h.bounced.drop hb⟩

/-- A layer that is not RECORDING has no pass. -/
theorem Store.Held.no_pass {σ : Store} (h : σ.Held) {id : LayerId} {r : Record} (hr : σ.layer id = some r)
    (hst : r.state ≠ .recording) (i : Input) (t : TrackId) : σ.pass i ≠ some (id, t) := by
  intro hi
  obtain ⟨x, hx, hxs, -⟩ := h.recording i id t hi
  rw [hr] at hx
  cases hx
  exact hst hxs

/-- A layer that is neither FORMING nor LIVE is held by no bounce. -/
theorem Store.Bounced.unheld {σ : Store} (h : σ.Bounced) {id : LayerId} {r : Record} (hr : σ.layer id = some r)
    (hf : r.state ≠ .forming) (hl : r.state ≠ .live) : σ.unheld id := by
  refine fun b hb => ⟨fun hid => ?_, fun hd => ?_⟩
  · obtain ⟨x, hx, hxs, -⟩ := h.live b id hb hid
    rw [hr] at hx
    cases hx
    exact hl hxs
  · obtain ⟨x, hx, hxs, -⟩ := h.dest b id hb hd
    rw [hr] at hx
    cases hx
    exact hf hxs

/-- A PARKED layer is dropped. -/
theorem Store.Legal.drop_parked {σ : Store} (h : σ.Legal) {id : LayerId} {r : Record} (hr : σ.layer id = some r)
    (hst : r.state = .parked) : (σ.drop id).Legal :=
  h.drop (h.held.no_pass hr (by rw [hst]; decide)) (h.bounced.unheld hr (by rw [hst]; decide) (by rw [hst]; decide))

end Sys2Proof.Machine
end

section
/-! PROOFS. A pass entered or ended, a layer parked or returned, a bounce started or ended, in the store. -/

namespace Sys2Proof.Machine

open Function (update update_apply)

/-! ## Several layers dropped -/

theorem Store.drops_frame : ∀ (ids : List LayerId) (σ : Store), (ids.foldl Store.drop σ).pass = σ.pass ∧
    (ids.foldl Store.drop σ).active = σ.active ∧ (ids.foldl Store.drop σ).idle = σ.idle ∧
    (ids.foldl Store.drop σ).waiting = σ.waiting ∧ (ids.foldl Store.drop σ).parks = σ.parks
  | [], _ => ⟨rfl, rfl, rfl, rfl, rfl⟩
  | id :: ids, σ => by
    obtain ⟨h1, h2, h3, h4, h5⟩ := Store.drops_frame ids (σ.drop id)
    obtain ⟨k1, k2, k3, k4, k5⟩ := σ.drop_frame id
    exact ⟨h1.trans k1, h2.trans k2, h3.trans k3, h4.trans k4, h5.trans k5⟩

theorem Store.drops_layer_eq_some {k : LayerId} {r : Record} : ∀ {ids : List LayerId} {σ : Store},
    (ids.foldl Store.drop σ).layer k = some r ↔ k ∉ ids ∧ σ.layer k = some r
  | [], _ => by simp
  | id :: ids, σ => by
    rw [List.foldl_cons, Store.drops_layer_eq_some, Store.drop_layer_eq_some, List.mem_cons]
    tauto

theorem Store.Listed.drops_lists {t : TrackId} : ∀ {ids : List LayerId} {σ : Store}, σ.Listed →
    (ids.foldl Store.drop σ).stack t = (σ.stack t).filter (· ∉ ids) ∧
      (ids.foldl Store.drop σ).redo t = (σ.redo t).filter (· ∉ ids)
  | [], _, _ => by simp
  | id :: ids, σ, h => by
    obtain ⟨h1, h2⟩ := (h.drop id).drops_lists (t := t) (ids := ids)
    obtain ⟨k1, k2⟩ := h.drop_lists id t
    rw [List.foldl_cons, h1, h2, k1, k2, List.filter_filter, List.filter_filter]
    constructor <;> (congr 1; funext x; simp only [List.mem_cons, not_or]; rw [Bool.decide_and, Bool.and_comm])

theorem Store.Ordered.drops : ∀ {ids : List LayerId} {σ : Store}, σ.Ordered →
    (∀ id ∈ ids, ∀ i t, σ.pass i ≠ some (id, t)) → (ids.foldl Store.drop σ).Ordered
  | [], _, h, _ => h
  | id :: ids, σ, h, hp => by
    refine Store.Ordered.drops (ids := ids) (σ := σ.drop id) (h.drop (hp id (by simp))) fun k hk i t => ?_
    rw [(σ.drop_frame id).1]
    exact hp k (by simp [hk]) i t

theorem Store.Bounced.drops : ∀ {ids : List LayerId} {σ : Store}, σ.Bounced → (∀ id ∈ ids, σ.unheld id) →
    (ids.foldl Store.drop σ).Bounced
  | [], _, h, _ => h
  | id :: ids, σ, h, hb => by
    refine Store.Bounced.drops (ids := ids) (σ := σ.drop id) (h.drop (hb id (by simp))) fun k hk b hact => ?_
    rw [(σ.drop_frame id).2.1] at hact
    exact hb k (by simp [hk]) b hact

theorem Store.Legal.drops {ids : List LayerId} {σ : Store} (h : σ.Legal)
    (hp : ∀ id ∈ ids, ∀ i t, σ.pass i ≠ some (id, t)) (hb : ∀ id ∈ ids, σ.unheld id) :
    (ids.foldl Store.drop σ).Legal := ⟨h.toOrdered.drops hp, h.bounced.drops hb⟩

/-- A layer in a redo list is held by no pass and no bounce. -/
theorem Store.Legal.redo_unheld {σ : Store} (h : σ.Legal) {t : TrackId} {id : LayerId} (hid : id ∈ σ.redo t) :
    (∀ i u, σ.pass i ≠ some (id, u)) ∧ σ.unheld id := by
  obtain ⟨r, hr, -, hst⟩ := (h.listed.mem_redo t id).1 hid
  exact ⟨h.held.no_pass hr (by rw [hst]; decide), h.bounced.unheld hr (by rw [hst]; decide) (by rw [hst]; decide)⟩

/-- A layer in a stack without a pass is LIVE. -/
theorem Store.Legal.stack_live {σ : Store} (h : σ.Legal) {t : TrackId} (hp : ∀ i id, σ.pass i ≠ some (id, t))
    {id : LayerId} (hid : id ∈ σ.stack t) : ∃ r, σ.layer id = some r ∧ r.track = t ∧ r.state = .live := by
  obtain ⟨r, hr, ht, hst | hst⟩ := (h.listed.mem_stack t id).1 hid
  · obtain ⟨i, u, hi⟩ := h.held.passed id r hr hst
    obtain ⟨x, hx, -, hu⟩ := h.held.recording i id u hi
    rw [hr] at hx
    cases hx
    exact absurd hi (hu ▸ ht ▸ hp i id)
  · exact ⟨r, hr, ht, hst⟩

/-- A LIVE layer is held by no bounce of another track. -/
theorem Store.Bounced.unheld_track {σ : Store} (h : σ.Bounced) {id : LayerId} {r : Record} (hr : σ.layer id = some r)
    (hst : r.state = .live) (hb : ∀ b, σ.active = some b → b.track ≠ r.track) : σ.unheld id := by
  refine fun b hact => ⟨fun hid => ?_, fun hd => ?_⟩
  · obtain ⟨x, hx, -, ht, -⟩ := h.live b id hact hid
    rw [hr] at hx
    cases hx
    exact hb b hact ht.symm
  · obtain ⟨x, hx, hxs, -⟩ := h.dest b id hact hd
    rw [hr] at hx
    cases hx
    rw [hst] at hxs
    cases hxs

/-! ## A pass ends (R33, R91) -/

def Store.clear (σ : Store) (i : Input) : Store := { σ with pass := update σ.pass i none }

/-- The pass of `id` is gone, and `id` is no more RECORDING. -/
theorem Store.Held.ended {σ τ : Store} (h : σ.Held) {i : Input} {id : LayerId} {t : TrackId}
    (hi : σ.pass i = some (id, t)) (hp : τ.pass = update σ.pass i none) (hl : ∀ k, k ≠ id → τ.layer k = σ.layer k)
    (hid : ∀ r, τ.layer id = some r → r.state ≠ .recording) : τ.Held := by
  have rest : ∀ j k u, τ.pass j = some (k, u) → j ≠ i ∧ σ.pass j = some (k, u) := by
    intro j k u hj
    rw [hp, update_apply] at hj
    split at hj
    · cases hj
    · next e => exact ⟨e, hj⟩
  refine ⟨fun j k u hj => ?_, fun j j' k u v hj hj' => ?_, fun k r hr hst => ?_⟩
  · obtain ⟨hne, hj⟩ := rest j k u hj
    rw [hl k fun e => hne (h.once i j id t u hi (e ▸ hj))]
    exact h.recording j k u hj
  · exact h.once j j' k u v (rest j k u hj).2 (rest j' k v hj').2
  · have hk : k ≠ id := fun e => hid r (e ▸ hr) hst
    rw [hl k hk] at hr
    obtain ⟨j, u, hj⟩ := h.passed k r hr hst
    refine ⟨j, u, ?_⟩
    rw [hp, Function.update_of_ne]
    · exact hj
    · rintro rfl
      rw [hi] at hj
      cases hj
      exact hk rfl

/-- An aborted pass leaves nothing (R91). -/
theorem Store.Legal.abort {σ : Store} (h : σ.Legal) {i : Input} {id : LayerId} {t : TrackId}
    (hi : σ.pass i = some (id, t)) : ((σ.clear i).drop id).Legal := by
  have hlisted : (σ.clear i).Listed := ⟨h.listed.1, h.listed.2, h.listed.3, h.listed.4, h.listed.5, h.listed.6⟩
  have hstamped : (σ.clear i).Stamped := ⟨h.stamped.1, h.stamped.2, h.stamped.3⟩
  have hpinned : (σ.clear i).Pinned := ⟨h.pinned.1, h.pinned.2, h.pinned.3⟩
  have hbounced : (σ.clear i).Bounced :=
    ⟨h.bounced.1, h.bounced.2, h.bounced.3, h.bounced.4, h.bounced.5, h.bounced.6⟩
  obtain ⟨r, hr, hst, -⟩ := h.held.recording i id t hi
  refine ⟨⟨hlisted.drop id, hstamped.drop id, hpinned.drop id, ?_⟩,
    hbounced.drop (h.bounced.unheld hr (by rw [hst]; decide) (by rw [hst]; decide))⟩
  refine h.held.ended hi ((σ.clear i).drop_frame id).1 (fun k hk => ?_) fun x hx => ?_
  · rw [Store.drop_layer, Function.update_of_ne hk]
    rfl
  · exact absurd rfl (Store.drop_layer_eq_some.1 hx).1

def Record.live (r : Record) : Record := { r with state := .live }

/-- A pass that has ended leaves its layer LIVE (R33). -/
theorem Store.Legal.endLive {σ : Store} (h : σ.Legal) {i : Input} {id : LayerId} {t : TrackId}
    (hi : σ.pass i = some (id, t)) : ((σ.clear i).mapRecord id Record.live).Legal := by
  obtain ⟨r, hr, hst, -⟩ := h.held.recording i id t hi
  have one : ∀ x, σ.layer id = some x → x = r := fun x hx => by rw [hr] at hx; exact (Option.some.inj hx).symm
  have hlisted : (σ.mapRecord id Record.live).Listed := h.listed.mapRecord fun x hx => by
    obtain rfl := one x hx
    simp [Record.live, hst]
  have hstamped : (σ.mapRecord id Record.live).Stamped := h.stamped.mapRecord fun x hx hp => by cases hp
  have hpinned : (σ.mapRecord id Record.live).Pinned := h.pinned.mapRecord fun x hx => by
    obtain rfl := one x hx
    refine ⟨fun hp => ?_, fun hp => hp⟩
    have := h.pinned.states id x hr hp
    simp [hst] at this
  have hbounced : (σ.mapRecord id Record.live).Bounced := h.bounced.mapRecord fun x hx => by
    obtain rfl := one x hx
    simp [Record.live, hst]
  refine ⟨⟨⟨hlisted.1, hlisted.2, hlisted.3, hlisted.4, hlisted.5, hlisted.6⟩, ⟨hstamped.1, hstamped.2, hstamped.3⟩,
    ⟨hpinned.1, hpinned.2, hpinned.3⟩, h.held.ended hi rfl (fun k hk => ?_) fun x hx => ?_⟩,
    ⟨hbounced.1, hbounced.2, hbounced.3, hbounced.4, hbounced.5, hbounced.6⟩⟩
  · exact Function.update_of_ne hk _ _
  · obtain ⟨hk, -⟩ | ⟨-, y, -, rfl⟩ := Store.mapRecord_layer.1 hx
    · exact absurd rfl hk
    · simp [Record.live]

/-! ## A pass starts (R78) -/

/-- A record of track `t` filled, at the top of its stack, with the pass that writes it. -/
def Store.enter (σ : Store) (i : Input) (t : TrackId) (id : LayerId) (r : Record) : Store :=
  { σ with
    stack := update σ.stack t (σ.stack t ++ [id]), layer := update σ.layer id (some r),
    pass := update σ.pass i (some (id, t)) }

/-- A FREE record stands in no list. -/
theorem Store.Listed.absent {σ : Store} (h : σ.Listed) {id : LayerId} (hid : σ.layer id = none) (t : TrackId) :
    id ∉ σ.stack t ∧ id ∉ σ.redo t := by
  constructor
  · intro hm
    obtain ⟨r, hr, -⟩ := (h.mem_stack t id).1 hm
    rw [hid] at hr
    cases hr
  · intro hm
    obtain ⟨r, hr, -⟩ := (h.mem_redo t id).1 hm
    rw [hid] at hr
    cases hr

/-- A record filled where it was FREE: every other record is as it was. -/
theorem Store.filled_eq_some {f : LayerId → Option Record} {id k : LayerId} {r x : Record} (hid : f id = none) :
    update f id (some r) k = some x ↔ f k = some x ∨ k = id ∧ x = r := by
  rw [update_apply]
  split
  · next e => simp [e, hid, eq_comm]
  · next e => simp [e]

theorem Store.Pinned.filled {σ τ : Store} (h : σ.Pinned) {id : LayerId} {r : Record} (hid : σ.layer id = none)
    (hl : τ.layer = update σ.layer id (some r)) (hp : r.pinned = false) (ht : τ.pinnedTotal = σ.pinnedTotal) :
    τ.Pinned := by
  refine ⟨?_, ht ▸ h.le, fun k x hx hxp => ?_⟩
  · rw [ht, h.total]
    refine Finset.sum_congr rfl fun k _ => ?_
    rw [Store.pinnedPages, Store.pinnedPages, hl, update_apply]
    split
    · next e => subst e; simp [hid, Record.pinnedPages, hp]
    · rfl
  · rw [hl] at hx
    obtain hx | ⟨-, rfl⟩ := (Store.filled_eq_some hid).1 hx
    · exact h.states k x hx hxp
    · rw [hp] at hxp
      cases hxp

theorem Store.Stamped.filled {σ τ : Store} (h : σ.Stamped) {id : LayerId} {r : Record} (hid : σ.layer id = none)
    (hl : τ.layer = update σ.layer id (some r)) (hst : r.state ≠ .parked) (hp : τ.parks = σ.parks) : τ.Stamped := by
  have old : ∀ k x, τ.layer k = some x → x.state = .parked → σ.layer k = some x := by
    intro k x hx hxs
    rw [hl] at hx
    obtain hx | ⟨-, rfl⟩ := (Store.filled_eq_some hid).1 hx
    · exact hx
    · exact absurd hxs hst
  exact ⟨hp ▸ h.parks_le, fun k x hx hxs => hp ▸ h.below k x (old k x hx hxs) hxs,
    fun k k' x x' hx hxs hx' hxs' => h.distinct k k' x x' (old k x hx hxs) hxs (old k' x' hx' hxs') hxs'⟩

theorem Store.Legal.enter {σ : Store} (h : σ.Legal) {i : Input} {t : TrackId} {id : LayerId} {r : Record}
    (hid : σ.layer id = none) (hi : σ.pass i = none) (ht : (σ.stack t).length < 12) (hst : r.state = .recording)
    (hrt : r.track = t) (hp : r.pinned = false) : (σ.enter i t id r).Legal := by
  have hlayer : ∀ k x, (σ.enter i t id r).layer k = some x ↔ σ.layer k = some x ∨ k = id ∧ x = r :=
    fun k x => Store.filled_eq_some hid
  have hpass : ∀ j k u, (σ.enter i t id r).pass j = some (k, u) ↔
      j ≠ i ∧ σ.pass j = some (k, u) ∨ j = i ∧ k = id ∧ u = t := by
    intro j k u
    simp only [Store.enter, update_apply]
    split
    · next e => simp [e, eq_comm]
    · next e => simp [e]
  have hstack : ∀ u, (σ.enter i t id r).stack u = if u = t then σ.stack t ++ [id] else σ.stack u :=
    fun u => update_apply _ _ _ _
  have fresh : ∀ j u, σ.pass j ≠ some (id, u) := by
    intro j u hj
    obtain ⟨x, hx, -⟩ := h.held.recording j id u hj
    rw [hid] at hx
    cases hx
  refine ⟨⟨⟨fun u => ?_, h.listed.redo_le, fun u => ?_, h.listed.redo_nodup, fun u k => ?_, fun u k => ?_⟩,
    h.stamped.filled hid rfl (by rw [hst]; decide) rfl, h.pinned.filled hid rfl hp rfl,
    ⟨fun j k u hj => ?_, fun j j' k u v hj hj' => ?_, fun k x hx hxs => ?_⟩⟩,
    ⟨fun k x hx hxs => ?_, h.bounced.rest, fun b k hb hd => ?_, h.bounced.sources, fun b k hb hk => ?_,
      h.bounced.waiting⟩⟩
  · rw [hstack]
    split
    · simp only [List.length_append, List.length_singleton]
      omega
    · exact h.listed.stack_le u
  · rw [hstack]
    split
    · refine List.nodup_append.2 ⟨h.listed.stack_nodup t, List.nodup_singleton id, fun x hx y hy => ?_⟩
      rintro rfl
      exact (h.listed.absent hid t).1 (List.mem_singleton.1 hy ▸ hx)
    · exact h.listed.stack_nodup u
  · have old := h.listed.mem_stack u k
    rw [hstack]
    simp only [hlayer]
    constructor
    · intro hk
      by_cases hu : u = t
      · rw [if_pos hu, List.mem_append, List.mem_singleton] at hk
        obtain hk | rfl := hk
        · obtain ⟨x, hx, hx'⟩ := old.1 (hu ▸ hk)
          exact ⟨x, .inl hx, hx'⟩
        · exact ⟨r, .inr ⟨rfl, rfl⟩, hrt.trans hu.symm, .inl hst⟩
      · rw [if_neg hu] at hk
        obtain ⟨x, hx, hx'⟩ := old.1 hk
        exact ⟨x, .inl hx, hx'⟩
    · rintro ⟨x, hx | ⟨rfl, rfl⟩, hxt, hxs⟩
      · have := old.2 ⟨x, hx, hxt, hxs⟩
        split
        · next e => exact List.mem_append_left _ (e ▸ this)
        · exact this
      · rw [if_pos (hxt.symm.trans hrt)]
        simp
  · simp only [hlayer]
    refine (h.listed.mem_redo u k).trans ⟨fun ⟨x, hx, hx'⟩ => ⟨x, .inl hx, hx'⟩, ?_⟩
    rintro ⟨x, hx | ⟨-, rfl⟩, hxt, hxs⟩
    · exact ⟨x, hx, hxt, hxs⟩
    · rw [hst] at hxs
      cases hxs
  · obtain ⟨-, hj⟩ | ⟨-, rfl, rfl⟩ := (hpass j k u).1 hj
    · obtain ⟨x, hx, hx'⟩ := h.held.recording j k u hj
      exact ⟨x, (hlayer k x).2 (.inl hx), hx'⟩
    · exact ⟨r, (hlayer k r).2 (.inr ⟨rfl, rfl⟩), hst, hrt⟩
  · obtain ⟨-, old⟩ | ⟨e, ek, -⟩ := (hpass j k u).1 hj
    · obtain ⟨-, old'⟩ | ⟨-, ek, -⟩ := (hpass j' k v).1 hj'
      · exact h.held.once j j' k u v old old'
      · exact absurd (ek ▸ old) (fresh j u)
    · obtain ⟨-, old'⟩ | ⟨e', -⟩ := (hpass j' k v).1 hj'
      · exact absurd (ek ▸ old') (fresh j' v)
      · exact e'.trans e.symm
  · obtain hx | ⟨rfl, -⟩ := (hlayer k x).1 hx
    · obtain ⟨j, u, hj⟩ := h.held.passed k x hx hxs
      refine ⟨j, u, (hpass j k u).2 (.inl ⟨?_, hj⟩)⟩
      rintro rfl
      rw [hi] at hj
      cases hj
    · exact ⟨i, t, (hpass i k t).2 (.inr ⟨rfl, rfl, rfl⟩)⟩
  · obtain hx | ⟨-, rfl⟩ := (hlayer k x).1 hx
    · exact h.bounced.formed k x hx hxs
    · rw [hst] at hxs
      cases hxs
  · obtain ⟨x, hx, hx'⟩ := h.bounced.dest b k hb hd
    exact ⟨x, (hlayer k x).2 (.inl hx), hx'⟩
  · obtain ⟨x, hx, hx'⟩ := h.bounced.live b k hb hk
    exact ⟨x, (hlayer k x).2 (.inl hx), hx'⟩

/-! ## A layer parked or returned (R31, R40) -/

/-- A layer goes from its track's stack to the tail of the redo list with the next park stamp. -/
def Store.park (σ : Store) (id : LayerId) : Store :=
  match σ.layer id with
  | none => σ
  | some r =>
    { σ with
      stack := update σ.stack r.track ((σ.stack r.track).filter (· ≠ id))
      redo := update σ.redo r.track (σ.redo r.track ++ [id])
      layer := update σ.layer id (some { r with state := .parked, stamp := some σ.parks })
      parks := σ.parks + 1 }

/-- A record written over. -/
theorem Store.written_eq_some {f : LayerId → Option Record} {id k : LayerId} {r x : Record} :
    update f id (some r) k = some x ↔ k ≠ id ∧ f k = some x ∨ k = id ∧ x = r := by
  rw [update_apply]
  split
  · next e => simp [e, eq_comm]
  · next e => simp [e]

/-- A record that moves from one list of its track to the other, its pages, its pin and its track as they were. -/
theorem Store.Pinned.written {σ τ : Store} (h : σ.Pinned) {id : LayerId} {r x : Record} (hid : σ.layer id = some r)
    (hl : τ.layer = update σ.layer id (some x)) (hx : x.pinned = r.pinned) (hg : x.pages = r.pages)
    (hst : x.state = .live ∨ x.state = .parked) (ht : τ.pinnedTotal = σ.pinnedTotal) : τ.Pinned := by
  refine ⟨?_, ht ▸ h.le, fun k y hy hyp => ?_⟩
  · rw [ht, h.total]
    refine Finset.sum_congr rfl fun k _ => ?_
    rw [Store.pinnedPages, Store.pinnedPages, hl, update_apply]
    split
    · next e => subst e; simp [hid, Record.pinnedPages, hx, hg]
    · rfl
  · rw [hl] at hy
    obtain ⟨-, hy⟩ | ⟨-, rfl⟩ := Store.written_eq_some.1 hy
    · exact h.states k y hy hyp
    · exact hst

/-- A layer that is held by no pass and no bounce changes its state, keeping its track. -/
theorem Store.Held.written {σ τ : Store} (h : σ.Held) {id : LayerId} {r x : Record} (hid : σ.layer id = some r)
    (hl : τ.layer = update σ.layer id (some x)) (hr : r.state ≠ .recording) (hx : x.state ≠ .recording)
    (hp : τ.pass = σ.pass) : τ.Held := by
  refine ⟨fun i k t hi => ?_, fun i j k t u hi hj => ?_, fun k y hy hys => ?_⟩
  · rw [hp] at hi
    obtain ⟨y, hy, hys, hyt⟩ := h.recording i k t hi
    refine ⟨y, hl ▸ Store.written_eq_some.2 (.inl ⟨?_, hy⟩), hys, hyt⟩
    rintro rfl
    rw [hid] at hy
    cases hy
    exact hr hys
  · rw [hp] at hi hj
    exact h.once i j k t u hi hj
  · rw [hl] at hy
    rw [hp]
    obtain ⟨-, hy⟩ | ⟨-, rfl⟩ := Store.written_eq_some.1 hy
    · exact h.passed k y hy hys
    · exact absurd hys hx

theorem Store.Bounced.written {σ τ : Store} (h : σ.Bounced) {id : LayerId} {x : Record} (hu : σ.unheld id)
    (hl : τ.layer = update σ.layer id (some x)) (hx : x.state ≠ .forming) (ha : τ.active = σ.active)
    (hi : τ.idle = σ.idle) (hw : τ.waiting = σ.waiting) : τ.Bounced := by
  refine ⟨fun k y hy hys => ?_, fun he => ha ▸ h.rest (hi ▸ he), fun b k hb hd => ?_, fun b hb => ?_,
    fun b k hb hk => ?_, fun n hn => h.waiting n (hw ▸ hn)⟩
  · rw [hl] at hy
    obtain ⟨-, hy⟩ | ⟨-, rfl⟩ := Store.written_eq_some.1 hy
    · rw [ha]
      exact h.formed k y hy hys
    · exact absurd hys hx
  · rw [ha] at hb
    obtain ⟨y, hy, hy'⟩ := h.dest b k hb hd
    exact ⟨y, hl ▸ Store.written_eq_some.2 (.inl ⟨fun e => (hu b hb).2 (e ▸ hd), hy⟩), hy'⟩
  · exact h.sources b (ha ▸ hb)
  · rw [ha] at hb
    obtain ⟨y, hy, hy'⟩ := h.live b k hb hk
    exact ⟨y, hl ▸ Store.written_eq_some.2 (.inl ⟨fun e => (hu b hb).1 (e ▸ hk), hy⟩), hy'⟩

theorem Store.Legal.park {σ : Store} (h : σ.Legal) {id : LayerId} {r : Record} (hid : σ.layer id = some r)
    (hst : r.state = .live) (hu : σ.unheld id) (hroom : (σ.redo r.track).length < 12) (hparks : σ.parks < 4294967295) :
    (σ.park id).Legal := by
  have hpark : σ.park id =
      { σ with
        stack := update σ.stack r.track ((σ.stack r.track).filter (· ≠ id))
        redo := update σ.redo r.track (σ.redo r.track ++ [id])
        layer := update σ.layer id (some { r with state := .parked, stamp := some σ.parks })
        parks := σ.parks + 1 } := by
    simp only [Store.park, hid]
  rw [hpark]
  have hnotin : id ∉ σ.redo r.track := fun hm => by
    obtain ⟨x, hx, -, hxs⟩ := (h.listed.mem_redo _ id).1 hm
    rw [hid] at hx
    cases hx
    rw [hst] at hxs
    cases hxs
  refine ⟨⟨⟨fun t => ?_, fun t => ?_, fun t => ?_, fun t => ?_, fun t k => ?_, fun t k => ?_⟩,
    ⟨?_, fun k x hx hxs => ?_, fun k k' x x' hx hxs hx' hxs' he => ?_⟩,
    h.pinned.written hid rfl rfl rfl (.inr rfl) rfl, h.held.written hid rfl (by rw [hst]; decide) (by simp) rfl⟩,
    h.bounced.written hu rfl (by simp) rfl rfl rfl⟩
  · simp only [update_apply]
    split
    · exact (List.length_filter_le _ _).trans (h.listed.stack_le _)
    · exact h.listed.stack_le t
  · simp only [update_apply]
    split
    · simp only [List.length_append, List.length_singleton]
      omega
    · exact h.listed.redo_le t
  · simp only [update_apply]
    split
    · exact (h.listed.stack_nodup _).filter _
    · exact h.listed.stack_nodup t
  · simp only [update_apply]
    split
    · refine List.nodup_append.2 ⟨h.listed.redo_nodup _, List.nodup_singleton id, fun x hx y hy => ?_⟩
      rintro rfl
      exact hnotin (List.mem_singleton.1 hy ▸ hx)
    · exact h.listed.redo_nodup t
  · have old := h.listed.mem_stack t k
    simp only [Store.written_eq_some]
    have hk : k ∈ update σ.stack r.track ((σ.stack r.track).filter (· ≠ id)) t ↔ k ∈ σ.stack t ∧ k ≠ id := by
      rw [update_apply]
      split
      · next e => simp [e]
      · next e =>
        refine ⟨fun hm => ⟨hm, ?_⟩, fun hm => hm.1⟩
        rintro rfl
        obtain ⟨x, hx, hxt, -⟩ := old.1 hm
        rw [hid] at hx
        cases hx
        exact e hxt.symm
    rw [hk, old]
    constructor
    · rintro ⟨⟨x, hx, hx'⟩, hne⟩
      exact ⟨x, .inl ⟨hne, hx⟩, hx'⟩
    · rintro ⟨x, ⟨hne, hx⟩ | ⟨-, rfl⟩, hxt, hxs⟩
      · exact ⟨⟨x, hx, hxt, hxs⟩, hne⟩
      · simp at hxs
  · have old := h.listed.mem_redo t k
    simp only [Store.written_eq_some]
    have hk : k ∈ update σ.redo r.track (σ.redo r.track ++ [id]) t ↔ k ∈ σ.redo t ∨ t = r.track ∧ k = id := by
      rw [update_apply]
      split
      · next e => simp [e]
      · next e => simp [e]
    rw [hk, old]
    constructor
    · rintro (⟨x, hx, hxt, hxs⟩ | ⟨rfl, rfl⟩)
      · refine ⟨x, .inl ⟨?_, hx⟩, hxt, hxs⟩
        rintro rfl
        rw [hid] at hx
        cases hx
        rw [hst] at hxs
        cases hxs
      · exact ⟨_, .inr ⟨rfl, rfl⟩, rfl, rfl⟩
    · rintro ⟨x, ⟨-, hx⟩ | ⟨rfl, rfl⟩, hxt, hxs⟩
      · exact .inl ⟨x, hx, hxt, hxs⟩
      · exact .inr ⟨hxt.symm, rfl⟩
  · simp only
    omega
  · obtain ⟨-, hx⟩ | ⟨-, rfl⟩ := Store.written_eq_some.1 hx
    · obtain ⟨n, hn, hlt⟩ := h.stamped.below k x hx hxs
      exact ⟨n, hn, Nat.lt_succ_of_lt hlt⟩
    · exact ⟨_, rfl, Nat.lt_succ_self _⟩
  · have older : ∀ k x, σ.layer k = some x → x.state = .parked → x.stamp ≠ some σ.parks := by
      intro k x hx hxs e
      obtain ⟨n, hn, hlt⟩ := h.stamped.below k x hx hxs
      rw [hn] at e
      cases e
      exact Nat.lt_irrefl _ hlt
    obtain ⟨-, hx⟩ | ⟨rfl, rfl⟩ := Store.written_eq_some.1 hx
    · obtain ⟨-, hx'⟩ | ⟨-, rfl⟩ := Store.written_eq_some.1 hx'
      · exact h.stamped.distinct k k' x x' hx hxs hx' hxs' he
      · exact absurd he (older k x hx hxs)
    · obtain ⟨-, hx'⟩ | ⟨rfl, -⟩ := Store.written_eq_some.1 hx'
      · exact absurd he.symm (older k' x' hx' hxs')
      · rfl

/-- The tail of a redo list goes to the top of its track's stack as LIVE (R40). -/
def Store.restore (σ : Store) (t : TrackId) (rest : List LayerId) (id : LayerId) : Store :=
  { σ with
    stack := update σ.stack t (σ.stack t ++ [id])
    redo := update σ.redo t rest
    layer := update σ.layer id ((σ.layer id).map fun r => { r with state := .live, stamp := none }) }

theorem Store.Legal.restore {σ : Store} (h : σ.Legal) {t : TrackId} {rest : List LayerId} {id : LayerId}
    (hr : σ.redo t = rest ++ [id]) (hs : (σ.stack t).length < 12) : (σ.restore t rest id).Legal := by
  have hmem : id ∈ σ.redo t := by simp [hr]
  obtain ⟨r, hid, ht, hst⟩ := (h.listed.mem_redo t id).1 hmem
  have hu : σ.unheld id := (h.redo_unheld hmem).2
  have hnd := h.listed.redo_nodup t
  rw [hr, List.nodup_append] at hnd
  have hrest : id ∉ rest := fun hm => hnd.2.2 id hm id (by simp) rfl
  have hnotin : id ∉ σ.stack t := fun hm => by
    obtain ⟨x, hx, -, hxs⟩ := (h.listed.mem_stack t id).1 hm
    rw [hid] at hx
    cases hx
    simp [hst] at hxs
  have hlayer : (σ.restore t rest id).layer = update σ.layer id (some { r with state := .live, stamp := none }) := by
    simp only [Store.restore, hid, Option.map_some]
  have hsome : ∀ k x, (σ.restore t rest id).layer k = some x ↔
      k ≠ id ∧ σ.layer k = some x ∨ k = id ∧ x = { r with state := .live, stamp := none } := fun k x => by
    rw [hlayer, Store.written_eq_some]
  have parked : ∀ k x, (σ.restore t rest id).layer k = some x → x.state = .parked → σ.layer k = some x := by
    intro k x hx hxs
    obtain ⟨-, hx⟩ | ⟨-, rfl⟩ := (hsome k x).1 hx
    · exact hx
    · cases hxs
  refine ⟨⟨⟨fun u => ?_, fun u => ?_, fun u => ?_, fun u => ?_, fun u k => ?_, fun u k => ?_⟩,
    ⟨h.stamped.parks_le, fun k x hx hxs => h.stamped.below k x (parked k x hx hxs) hxs,
      fun k k' x x' hx hxs hx' hxs' =>
        h.stamped.distinct k k' x x' (parked k x hx hxs) hxs (parked k' x' hx' hxs') hxs'⟩,
    h.pinned.written hid hlayer rfl rfl (.inl rfl) rfl, h.held.written hid hlayer (by rw [hst]; decide) (by simp) rfl⟩,
    h.bounced.written hu hlayer (by simp) rfl rfl rfl⟩
  · simp only [Store.restore, update_apply]
    split
    · simp only [List.length_append, List.length_singleton]
      omega
    · exact h.listed.stack_le u
  · simp only [Store.restore, update_apply]
    split
    · have := h.listed.redo_le t
      rw [hr, List.length_append] at this
      omega
    · exact h.listed.redo_le u
  · simp only [Store.restore, update_apply]
    split
    · refine List.nodup_append.2 ⟨h.listed.stack_nodup t, List.nodup_singleton id, fun x hx y hy => ?_⟩
      rintro rfl
      exact hnotin (List.mem_singleton.1 hy ▸ hx)
    · exact h.listed.stack_nodup u
  · simp only [Store.restore, update_apply]
    split
    · exact hnd.1
    · exact h.listed.redo_nodup u
  · have hk : k ∈ (σ.restore t rest id).stack u ↔ k ∈ σ.stack u ∨ u = t ∧ k = id := by
      simp only [Store.restore, update_apply]
      split
      · next e => simp [e]
      · next e => simp [e]
    simp only [hk, h.listed.mem_stack, hsome]
    constructor
    · rintro (⟨x, hx, hxt, hxs⟩ | ⟨rfl, rfl⟩)
      · refine ⟨x, .inl ⟨?_, hx⟩, hxt, hxs⟩
        rintro rfl
        rw [hid] at hx
        cases hx
        simp [hst] at hxs
      · exact ⟨_, .inr ⟨rfl, rfl⟩, ht, .inr rfl⟩
    · rintro ⟨x, ⟨-, hx⟩ | ⟨rfl, rfl⟩, hxt, hxs⟩
      · exact .inl ⟨x, hx, hxt, hxs⟩
      · exact .inr ⟨hxt.symm.trans ht, rfl⟩
  · have hk : k ∈ (σ.restore t rest id).redo u ↔ k ∈ σ.redo u ∧ k ≠ id := by
      simp only [Store.restore, update_apply]
      split
      · next e =>
        rw [e, hr, List.mem_append, List.mem_singleton]
        refine ⟨fun hm => ⟨.inl hm, fun e => hrest (e ▸ hm)⟩, fun ⟨hm, hne⟩ => hm.resolve_right hne⟩
      · next e =>
        refine ⟨fun hm => ⟨hm, ?_⟩, fun hm => hm.1⟩
        rintro rfl
        obtain ⟨x, hx, hxt, -⟩ := (h.listed.mem_redo u k).1 hm
        rw [hid] at hx
        cases hx
        exact e (hxt.symm.trans ht)
    simp only [hk, h.listed.mem_redo, hsome]
    constructor
    · rintro ⟨⟨x, hx, hx'⟩, hne⟩
      exact ⟨x, .inl ⟨hne, hx⟩, hx'⟩
    · rintro ⟨x, ⟨hne, hx⟩ | ⟨-, rfl⟩, hxt, hxs⟩
      · exact ⟨⟨x, hx, hxt, hxs⟩, hne⟩
      · cases hxs

end Sys2Proof.Machine
end

section
/-! PROOFS. The park stamps numbered anew, a bounce started and ended, and the pages that change places, in the store. -/

namespace Sys2Proof.Machine

open Function (update update_apply)

/-! ## The stamps numbered anew (R31) -/

/-- How many PARKED records of a store have a stamp below `n`. -/
def Store.parkedBelow (σ : Store) (n : Nat) : Nat :=
  (allLayers.filter fun id => (σ.layer id).any fun r => r.state = .parked && r.stamp.getD 0 < n).length

/-- A record with its stamp numbered anew, where it is PARKED. -/
def Store.restamp (σ : Store) (r : Record) : Record :=
  if r.state = .parked then { r with stamp := some (σ.parkedBelow (r.stamp.getD 0)) } else r

/-- The stamps of all PARKED records numbered in their order. -/
def Store.renumber (σ : Store) : Store :=
  { σ with
    layer := fun id => (σ.layer id).map σ.restamp
    parks := (allLayers.filter fun id => (σ.layer id).any fun r => r.state = .parked).length }

/-- Of two properties of records the narrower one holds of fewer. -/
theorem length_filter_allLayers_lt {p q : LayerId → Bool} (hpq : ∀ k, p k = true → q k = true) {id : LayerId}
    (hp : p id = false) (hq : q id = true) : (allLayers.filter p).length < (allLayers.filter q).length := by
  have hsub : (allLayers.filter p).Sublist (allLayers.filter q) := List.monotone_filter_right _ hpq
  refine Nat.lt_of_le_of_ne hsub.length_le fun he => ?_
  have hmem : id ∈ allLayers.filter q := List.mem_filter.2 ⟨mem_allLayers id, hq⟩
  rw [← hsub.eq_of_length he, List.mem_filter, hp] at hmem
  cases hmem.2

theorem Store.restamp_fields (σ : Store) (r : Record) : (σ.restamp r).state = r.state ∧
    (σ.restamp r).track = r.track ∧ (σ.restamp r).pinned = r.pinned ∧ (σ.restamp r).pages = r.pages := by
  unfold Store.restamp
  split
  · exact ⟨rfl, rfl, rfl, rfl⟩
  · exact ⟨rfl, rfl, rfl, rfl⟩

theorem Store.renumber_layer {σ : Store} {id : LayerId} {x : Record} :
    σ.renumber.layer id = some x ↔ ∃ r, σ.layer id = some r ∧ σ.restamp r = x := Option.map_eq_some_iff

/-- Older stamps stay below newer ones. -/
theorem Store.parkedBelow_lt {σ : Store} {id : LayerId} {r : Record} (hr : σ.layer id = some r)
    (hst : r.state = .parked) {m : Nat} (hm : r.stamp.getD 0 < m) : σ.parkedBelow (r.stamp.getD 0) < σ.parkedBelow m := by
  refine length_filter_allLayers_lt (id := id) (fun k hk => ?_) ?_ ?_
  · cases hl : σ.layer k with
    | none => simp [hl] at hk
    | some x =>
      simp only [hl, Option.any_some, Bool.and_eq_true, decide_eq_true_eq] at hk ⊢
      exact ⟨hk.1, hk.2.trans hm⟩
  · simp [hr]
  · simp [hr, hst, hm]

theorem Store.Stamped.renumber {σ : Store} (h : σ.Stamped) : σ.renumber.Stamped := by
  have stamp : ∀ r, r.state = .parked → (σ.restamp r).stamp = some (σ.parkedBelow (r.stamp.getD 0)) := by
    intro r hst
    simp only [Store.restamp, hst, if_true]
  refine ⟨?_, fun k x hx hxs => ?_, fun k k' x x' hx hxs hx' hxs' he => ?_⟩
  · have h48 : allLayers.length = 48 := rfl
    have := List.length_filter_le (fun id => (σ.layer id).any fun r => r.state = .parked) allLayers
    simp only [Store.renumber]
    omega
  · obtain ⟨r, hr, rfl⟩ := Store.renumber_layer.1 hx
    have hst : r.state = .parked := (σ.restamp_fields r).1.symm.trans hxs
    refine ⟨_, stamp r hst, length_filter_allLayers_lt (id := k) (fun j hj => ?_) ?_ ?_⟩
    · cases hl : σ.layer j with
      | none => simp [hl] at hj
      | some y =>
        simp only [hl, Option.any_some, Bool.and_eq_true] at hj ⊢
        exact hj.1
    · simp [hr]
    · simp [hr, hst]
  · obtain ⟨r, hr, rfl⟩ := Store.renumber_layer.1 hx
    obtain ⟨r', hr', rfl⟩ := Store.renumber_layer.1 hx'
    have hst : r.state = .parked := (σ.restamp_fields r).1.symm.trans hxs
    have hst' : r'.state = .parked := (σ.restamp_fields r').1.symm.trans hxs'
    rw [stamp r hst, stamp r' hst', Option.some.injEq] at he
    obtain ⟨n, hn, -⟩ := h.below k r hr hst
    obtain ⟨n', hn', -⟩ := h.below k' r' hr' hst'
    refine h.distinct k k' r r' hr hst hr' hst' ?_
    rw [hn, hn', Option.some.injEq]
    obtain hlt | heq | hlt := Nat.lt_trichotomy n n'
    · have := Store.parkedBelow_lt hr hst (m := r'.stamp.getD 0) (by rw [hn, hn']; exact hlt)
      omega
    · exact heq
    · have := Store.parkedBelow_lt hr' hst' (m := r.stamp.getD 0) (by rw [hn, hn']; exact hlt)
      omega

theorem Store.Legal.renumber {σ : Store} (h : σ.Legal) : σ.renumber.Legal := by
  have fwd : ∀ {k : LayerId} {r : Record}, σ.layer k = some r → ∃ x, σ.renumber.layer k = some x ∧ x.state = r.state ∧
      x.track = r.track ∧ x.pinned = r.pinned := fun {k r} hr =>
    ⟨_, Store.renumber_layer.2 ⟨r, hr, rfl⟩, (σ.restamp_fields r).1, (σ.restamp_fields r).2.1, (σ.restamp_fields r).2.2.1⟩
  have back : ∀ {k : LayerId} {x : Record}, σ.renumber.layer k = some x → ∃ r, σ.layer k = some r ∧ x.state = r.state ∧
      x.track = r.track ∧ x.pinned = r.pinned := by
    intro k x hx
    obtain ⟨r, hr, rfl⟩ := Store.renumber_layer.1 hx
    exact ⟨r, hr, (σ.restamp_fields r).1, (σ.restamp_fields r).2.1, (σ.restamp_fields r).2.2.1⟩
  refine ⟨⟨⟨h.listed.stack_le, h.listed.redo_le, h.listed.stack_nodup, h.listed.redo_nodup,
    fun t k => (h.listed.mem_stack t k).trans ⟨fun ⟨r, hr, ht, hst⟩ => ?_, fun ⟨x, hx, ht, hst⟩ => ?_⟩,
    fun t k => (h.listed.mem_redo t k).trans ⟨fun ⟨r, hr, ht, hst⟩ => ?_, fun ⟨x, hx, ht, hst⟩ => ?_⟩⟩,
    h.stamped.renumber, ⟨h.pinned.total.trans (Finset.sum_congr rfl fun k _ => ?_), h.pinned.le, fun k x hx hp => ?_⟩,
    ⟨fun i k t hi => ?_, h.held.once, fun k x hx hst => ?_⟩⟩,
    ⟨fun k x hx hst => ?_, h.bounced.rest, fun b k hb hd => ?_, h.bounced.sources, fun b k hb hk => ?_,
      h.bounced.waiting⟩⟩
  · obtain ⟨x, hx, x1, x2, -⟩ := fwd hr
    exact ⟨x, hx, x2.trans ht, x1 ▸ hst⟩
  · obtain ⟨r, hr, x1, x2, -⟩ := back hx
    exact ⟨r, hr, x2.symm.trans ht, x1 ▸ hst⟩
  · obtain ⟨x, hx, x1, x2, -⟩ := fwd hr
    exact ⟨x, hx, x2.trans ht, x1.trans hst⟩
  · obtain ⟨r, hr, x1, x2, -⟩ := back hx
    exact ⟨r, hr, x2.symm.trans ht, x1.symm.trans hst⟩
  · simp only [Store.pinnedPages, Store.renumber]
    cases σ.layer k with
    | none => rfl
    | some r =>
      obtain ⟨-, -, h3, h4⟩ := σ.restamp_fields r
      simp only [Option.map_some, Option.elim_some, Record.pinnedPages, h3, h4]
  · obtain ⟨r, hr, x1, -, x3⟩ := back hx
    rw [x1]
    exact h.pinned.states k r hr (x3 ▸ hp)
  · obtain ⟨r, hr, hst, ht⟩ := h.held.recording i k t hi
    obtain ⟨x, hx, x1, x2, -⟩ := fwd hr
    exact ⟨x, hx, x1.trans hst, x2.trans ht⟩
  · obtain ⟨r, hr, x1, -⟩ := back hx
    exact h.held.passed k r hr (x1.symm.trans hst)
  · obtain ⟨r, hr, x1, -⟩ := back hx
    exact h.bounced.formed k r hr (x1.symm.trans hst)
  · obtain ⟨r, hr, hst, ht⟩ := h.bounced.dest b k hb hd
    obtain ⟨x, hx, x1, x2, -⟩ := fwd hr
    exact ⟨x, hx, x1.trans hst, x2.trans ht⟩
  · obtain ⟨r, hr, hst, ht, hp⟩ := h.bounced.live b k hb hk
    obtain ⟨x, hx, x1, x2, x3⟩ := fwd hr
    exact ⟨x, hx, x1.trans hst, x2.trans ht, x3.trans hp⟩

/-! ## A bounce starts (R134) -/

/-- The sources of a bounce that may start: LIVE, unpinned, of one track. -/
def Store.offers (σ : Store) (b : Holding) : Prop :=
  b.sources ≠ [] ∧ b.sources.Nodup ∧
    ∀ id ∈ b.sources, ∃ r, σ.layer id = some r ∧ r.state = .live ∧ r.track = b.track ∧ r.pinned = false

/-- Without an active bounce no record is FORMING. -/
theorem Store.Bounced.no_forming {σ : Store} (h : σ.Bounced) (ha : σ.active = none) {id : LayerId} {r : Record}
    (hr : σ.layer id = some r) : r.state ≠ .forming := by
  intro hst
  obtain ⟨b, hb, -⟩ := h.formed id r hr hst
  rw [ha] at hb
  cases hb

theorem Store.Legal.scan {σ : Store} (h : σ.Legal) (ha : σ.active = none) {b : Holding} (ho : σ.offers b)
    (hd : b.dest = none) : ({ σ with active := some b, idle := false } : Store).Legal := by
  refine ⟨⟨⟨h.listed.1, h.listed.2, h.listed.3, h.listed.4, h.listed.5, h.listed.6⟩,
    ⟨h.stamped.1, h.stamped.2, h.stamped.3⟩, ⟨h.pinned.1, h.pinned.2, h.pinned.3⟩, ⟨h.held.1, h.held.2, h.held.3⟩⟩,
    ⟨fun k r hr hst => absurd hst (h.bounced.no_forming ha hr), fun he => (by cases he), fun c k hc hk => ?_,
      fun c hc => ?_, fun c k hc hk => ?_, h.bounced.waiting⟩⟩
  · cases hc
    rw [hd] at hk
    cases hk
  · cases hc
    exact ⟨ho.1, ho.2.1⟩
  · cases hc
    exact ho.2.2 k hk

/-- A commit starts with a FORMING destination in a record that was FREE (R35). -/
theorem Store.Legal.form {σ : Store} (h : σ.Legal) (ha : σ.active = none) {b : Holding} (ho : σ.offers b)
    {id : LayerId} {r : Record} (hid : σ.layer id = none) (hd : b.dest = some id) (hst : r.state = .forming)
    (ht : r.track = b.track) (hp : r.pinned = false) {g : Multiset Page} :
    ({ σ with layer := update σ.layer id (some r), active := some b, idle := false, loose := g } : Store).Legal := by
  have hlayer : ∀ k x, update σ.layer id (some r) k = some x ↔ σ.layer k = some x ∨ k = id ∧ x = r :=
    fun k x => Store.filled_eq_some hid
  refine ⟨⟨⟨h.listed.1, h.listed.2, h.listed.3, h.listed.4, fun t k => (h.listed.mem_stack t k).trans ?_,
    fun t k => (h.listed.mem_redo t k).trans ?_⟩, h.stamped.filled hid rfl (by rw [hst]; decide) rfl,
    h.pinned.filled hid rfl hp rfl, ⟨fun i k t hi => ?_, h.held.once, fun k x hx hxs => ?_⟩⟩,
    ⟨fun k x hx hxs => ⟨b, rfl, ?_⟩, fun he => (by cases he), fun c k hc hk => ?_, fun c hc => ?_, fun c k hc hk => ?_,
      h.bounced.waiting⟩⟩
  · simp only [hlayer]
    refine ⟨fun ⟨x, hx, hx'⟩ => ⟨x, .inl hx, hx'⟩, ?_⟩
    rintro ⟨x, hx | ⟨-, rfl⟩, hxt, hxs⟩
    · exact ⟨x, hx, hxt, hxs⟩
    · simp [hst] at hxs
  · simp only [hlayer]
    refine ⟨fun ⟨x, hx, hx'⟩ => ⟨x, .inl hx, hx'⟩, ?_⟩
    rintro ⟨x, hx | ⟨-, rfl⟩, hxt, hxs⟩
    · exact ⟨x, hx, hxt, hxs⟩
    · simp [hst] at hxs
  · obtain ⟨x, hx, hx'⟩ := h.held.recording i k t hi
    exact ⟨x, (hlayer k x).2 (.inl hx), hx'⟩
  · obtain hx | ⟨-, rfl⟩ := (hlayer k x).1 hx
    · exact h.held.passed k x hx hxs
    · rw [hst] at hxs
      cases hxs
  · obtain hx | ⟨rfl, -⟩ := (hlayer k x).1 hx
    · exact absurd hxs (h.bounced.no_forming ha hx)
    · exact hd
  · cases hc
    rw [hd] at hk
    cases hk
    exact ⟨r, (hlayer id r).2 (.inr ⟨rfl, rfl⟩), hst, ht⟩
  · cases hc
    exact ⟨ho.1, ho.2.1⟩
  · cases hc
    obtain ⟨x, hx, hx'⟩ := ho.2.2 k hk
    exact ⟨x, (hlayer k x).2 (.inl hx), hx'⟩

/-- The engine at work. -/
theorem Store.Legal.busy {σ : Store} (h : σ.Legal) : ({ σ with idle := false } : Store).Legal :=
  ⟨⟨⟨h.listed.1, h.listed.2, h.listed.3, h.listed.4, h.listed.5, h.listed.6⟩,
    ⟨h.stamped.1, h.stamped.2, h.stamped.3⟩, ⟨h.pinned.1, h.pinned.2, h.pinned.3⟩, ⟨h.held.1, h.held.2, h.held.3⟩⟩,
    ⟨h.bounced.1, fun he => (by cases he), h.bounced.3, h.bounced.4, h.bounced.5, h.bounced.6⟩⟩

/-- The waiting list may change within R133's counts. -/
theorem Store.Legal.wait {σ : Store} (h : σ.Legal) {ws : List Nat} (hw : ∀ n ∈ ws, 2 ≤ n) :
    ({ σ with waiting := ws } : Store).Legal :=
  ⟨⟨⟨h.listed.1, h.listed.2, h.listed.3, h.listed.4, h.listed.5, h.listed.6⟩,
    ⟨h.stamped.1, h.stamped.2, h.stamped.3⟩, ⟨h.pinned.1, h.pinned.2, h.pinned.3⟩, ⟨h.held.1, h.held.2, h.held.3⟩⟩,
    ⟨h.bounced.1, h.bounced.2, h.bounced.3, h.bounced.4, h.bounced.5, hw⟩⟩

/-- The order of the store does not ask which pages are loose. -/
theorem Store.Legal.loosened {σ : Store} (h : σ.Legal) (g : Multiset Page) : ({ σ with loose := g } : Store).Legal :=
  ⟨⟨⟨h.listed.1, h.listed.2, h.listed.3, h.listed.4, h.listed.5, h.listed.6⟩,
    ⟨h.stamped.1, h.stamped.2, h.stamped.3⟩, ⟨h.pinned.1, h.pinned.2, h.pinned.3⟩, ⟨h.held.1, h.held.2, h.held.3⟩⟩,
    ⟨h.bounced.1, h.bounced.2, h.bounced.3, h.bounced.4, h.bounced.5, h.bounced.6⟩⟩

/-! ## A bounce ends (R139, R141) -/

/-- The engine IDLE, without a bounce. -/
def Store.rested (σ : Store) : Store := { σ with active := none, idle := true }

theorem Store.Ordered.rested {σ : Store} (h : σ.Ordered) (hf : ∀ id r, σ.layer id = some r → r.state ≠ .forming)
    (hw : ∀ n ∈ σ.waiting, 2 ≤ n) : σ.rested.Legal :=
  ⟨⟨⟨h.listed.1, h.listed.2, h.listed.3, h.listed.4, h.listed.5, h.listed.6⟩,
    ⟨h.stamped.1, h.stamped.2, h.stamped.3⟩, ⟨h.pinned.1, h.pinned.2, h.pinned.3⟩, ⟨h.held.1, h.held.2, h.held.3⟩⟩,
    ⟨fun k r hr hst => absurd hst (hf k r hr), fun _ => rfl, fun b k hb => (by cases hb), fun b hb => (by cases hb),
      fun b k hb => (by cases hb), hw⟩⟩

/-- A FORMING record is the destination of the bounce that is active. -/
theorem Store.Bounced.forming_dest {σ : Store} (h : σ.Bounced) {b : Holding} (hb : σ.active = some b) {id : LayerId}
    {r : Record} (hr : σ.layer id = some r) (hst : r.state = .forming) : b.dest = some id := by
  obtain ⟨c, hc, hd⟩ := h.formed id r hr hst
  rw [hb] at hc
  cases hc
  exact hd

/-- A bounce without a destination ends, aborted or not. -/
theorem Store.Legal.rest {σ : Store} (h : σ.Legal) {b : Holding} (hb : σ.active = some b) (hd : b.dest = none) :
    σ.rested.Legal :=
  h.toOrdered.rested (fun id r hr hst => by
    have := h.bounced.forming_dest hb hr hst
    rw [hd] at this
    cases this) h.bounced.waiting

/-- An aborted commit's destination is dropped (R62). -/
theorem Store.Legal.abandon {σ : Store} (h : σ.Legal) {b : Holding} (hb : σ.active = some b) {id : LayerId}
    (hd : b.dest = some id) : (σ.drop id).rested.Legal := by
  obtain ⟨r, hr, hst, -⟩ := h.bounced.dest b id hb hd
  have ho := h.toOrdered.drop (h.held.no_pass hr (by rw [hst]; decide))
  refine ho.rested (fun k x hx hxs => ?_) fun n hn => h.bounced.waiting n ((σ.drop_frame id).2.2.2.1 ▸ hn)
  obtain ⟨hk, hx⟩ := Store.drop_layer_eq_some.1 hx
  have := h.bounced.forming_dest hb hx hxs
  rw [hd, Option.some.injEq] at this
  exact hk this.symm

/-- The destination of a commit stands LIVE at the bottom of its track's stack (R36). -/
def Store.raise (σ : Store) (t : TrackId) (id : LayerId) : Store :=
  ({ σ with stack := update σ.stack t (id :: σ.stack t) } : Store).mapRecord id Record.live

theorem Store.Ordered.raise {σ : Store} (h : σ.Ordered) {t : TrackId} {id : LayerId} {r : Record}
    (hr : σ.layer id = some r) (hst : r.state = .forming) (ht : r.track = t) (hs : (σ.stack t).length < 12) :
    (σ.raise t id).Ordered := by
  have hlayer : (σ.raise t id).layer = update σ.layer id (some r.live) := by
    simp only [Store.raise, Store.mapRecord, hr, Option.map_some]
  have hsome : ∀ k x, (σ.raise t id).layer k = some x ↔ k ≠ id ∧ σ.layer k = some x ∨ k = id ∧ x = r.live :=
    fun k x => by rw [hlayer, Store.written_eq_some]
  have other : ∀ k x, σ.layer k = some x → x.state ≠ .forming → (σ.raise t id).layer k = some x := by
    intro k x hx hxs
    refine (hsome k x).2 (.inl ⟨?_, hx⟩)
    rintro rfl
    rw [hr] at hx
    cases hx
    exact hxs hst
  have hnotin : id ∉ σ.stack t := fun hm => by
    obtain ⟨x, hx, -, hxs⟩ := (h.listed.mem_stack t id).1 hm
    rw [hr] at hx
    cases hx
    simp [hst] at hxs
  have parked : ∀ k x, (σ.raise t id).layer k = some x → x.state = .parked → σ.layer k = some x := by
    intro k x hx hxs
    obtain ⟨-, hx⟩ | ⟨-, rfl⟩ := (hsome k x).1 hx
    · exact hx
    · cases hxs
  refine ⟨⟨fun u => ?_, h.listed.redo_le, fun u => ?_, h.listed.redo_nodup, fun u k => ?_, fun u k => ?_⟩,
    ⟨h.stamped.parks_le, fun k x hx hxs => h.stamped.below k x (parked k x hx hxs) hxs,
      fun k k' x x' hx hxs hx' hxs' =>
        h.stamped.distinct k k' x x' (parked k x hx hxs) hxs (parked k' x' hx' hxs') hxs'⟩,
    h.pinned.written hr hlayer rfl rfl (.inl rfl) rfl,
    h.held.written hr hlayer (by rw [hst]; decide) (by simp [Record.live]) rfl⟩
  · simp only [Store.raise, Store.mapRecord, update_apply]
    split
    · simp only [List.length_cons]
      omega
    · exact h.listed.stack_le u
  · simp only [Store.raise, Store.mapRecord, update_apply]
    split
    · exact List.nodup_cons.2 ⟨hnotin, h.listed.stack_nodup t⟩
    · exact h.listed.stack_nodup u
  · have hk : k ∈ (σ.raise t id).stack u ↔ k ∈ σ.stack u ∨ u = t ∧ k = id := by
      simp only [Store.raise, Store.mapRecord, update_apply]
      split
      · next e => rw [e, List.mem_cons]; tauto
      · next e => tauto
    simp only [hk, h.listed.mem_stack]
    constructor
    · rintro (⟨x, hx, hxt, hxs⟩ | ⟨rfl, rfl⟩)
      · exact ⟨x, other k x hx (by obtain hxs | hxs := hxs <;> simp [hxs]), hxt, hxs⟩
      · exact ⟨_, (hsome k _).2 (.inr ⟨rfl, rfl⟩), ht, .inr rfl⟩
    · rintro ⟨x, hx, hxt, hxs⟩
      obtain ⟨-, hx⟩ | ⟨rfl, rfl⟩ := (hsome k x).1 hx
      · exact .inl ⟨x, hx, hxt, hxs⟩
      · exact .inr ⟨hxt.symm.trans ht, rfl⟩
  · refine (h.listed.mem_redo u k).trans ⟨fun ⟨x, hx, hxt, hxs⟩ => ⟨x, other k x hx (by simp [hxs]), hxt, hxs⟩, ?_⟩
    rintro ⟨x, hx, hxt, hxs⟩
    exact ⟨x, parked k x hx hxs, hxt, hxs⟩

/-- A commit ends: its sources dropped, bottom first, and its destination at the bottom of the stack (R36, R139). -/
theorem Store.Legal.commit {σ : Store} (h : σ.Legal) {b : Holding} (hb : σ.active = some b) {id : LayerId}
    (hd : b.dest = some id) : ((b.sources.foldl Store.drop σ).raise b.track id).rested.Legal := by
  obtain ⟨r, hr, hst, ht⟩ := h.bounced.dest b id hb hd
  have hlive := fun k hk => h.bounced.live b k hb hk
  have hpass : ∀ k ∈ b.sources, ∀ i t, σ.pass i ≠ some (k, t) := fun k hk => by
    obtain ⟨x, hx, hxs, -⟩ := hlive k hk
    exact h.held.no_pass hx (by rw [hxs]; decide)
  have ho := h.toOrdered.drops hpass
  have hnot : id ∉ b.sources := fun hm => by
    obtain ⟨x, hx, hxs, -⟩ := hlive id hm
    rw [hr] at hx
    cases hx
    rw [hst] at hxs
    cases hxs
  have hr' : (b.sources.foldl Store.drop σ).layer id = some r := Store.drops_layer_eq_some.2 ⟨hnot, hr⟩
  have hlt : ((b.sources.foldl Store.drop σ).stack b.track).length < 12 := by
    rw [(h.listed.drops_lists (ids := b.sources)).1]
    obtain ⟨k, hk⟩ := List.exists_mem_of_ne_nil _ (h.bounced.sources b hb).1
    obtain ⟨x, hx, hxs, hxt, -⟩ := hlive k hk
    have hmem := (h.listed.mem_stack b.track k).2 ⟨x, hx, hxt, .inr hxs⟩
    refine Nat.lt_of_lt_of_le ?_ (h.listed.stack_le b.track)
    exact List.length_filter_lt_length_iff_exists.2 ⟨k, hmem, by simp [hk]⟩
  refine (ho.raise hr' hst ht hlt).rested (fun k x hx hxs => ?_) fun n hn => ?_
  · obtain ⟨hk, hx⟩ | ⟨-, y, -, rfl⟩ := Store.mapRecord_layer.1 hx
    · have := h.bounced.forming_dest hb (Store.drops_layer_eq_some.1 hx).2 hxs
      rw [hd, Option.some.injEq] at this
      exact hk this.symm
    · cases hxs
  · exact h.bounced.waiting n ((Store.drops_frame b.sources σ).2.2.2.1 ▸ hn)

/-! ## Pages that change places (R51) -/

theorem Store.placed_congr {σ τ : Store} (hl : τ.loose = σ.loose) (hp : ∀ id, τ.pagesOf id = σ.pagesOf id) :
    τ.placed = σ.placed := by
  rw [Store.placed, Store.placed, hl, Finset.sum_congr rfl fun id _ => hp id]

/-- Pages move between one record and the loose ones. -/
theorem Store.placed_move {σ τ : Store} {id : LayerId} (hp : ∀ k, k ≠ id → τ.pagesOf k = σ.pagesOf k)
    (hl : τ.loose + τ.pagesOf id = σ.loose + σ.pagesOf id) : τ.placed = σ.placed := by
  have hsum := sum_change id hp
  refine add_right_cancel (b := σ.pagesOf id + τ.pagesOf id) ?_
  calc τ.placed + (σ.pagesOf id + τ.pagesOf id)
      = (τ.loose + τ.pagesOf id) + (∑ k, τ.pagesOf k + σ.pagesOf id) := by rw [Store.placed]; abel
    _ = (σ.loose + σ.pagesOf id) + (∑ k, σ.pagesOf k + τ.pagesOf id) := by rw [hl, hsum]
    _ = σ.placed + (σ.pagesOf id + τ.pagesOf id) := by rw [Store.placed]; abel

theorem Store.placed_drop (σ : Store) (id : LayerId) : (σ.drop id).placed = σ.placed := by
  refine Store.placed_move (id := id) (fun k hk => ?_) ?_
  · rw [Store.pagesOf, Store.drop_layer, Function.update_of_ne hk, Store.pagesOf]
  · have hnone : (σ.drop id).pagesOf id = 0 := by
      rw [Store.pagesOf, Store.drop_layer, Function.update_self]
      rfl
    rw [hnone, add_zero]
    cases hr : σ.layer id with
    | none => rw [Store.drop_of_none hr, Store.pagesOf, hr, Option.elim_none, add_zero]
    | some r => simp only [Store.drop, hr, Store.pagesOf, Option.elim_some]

theorem Store.placed_drops : ∀ (ids : List LayerId) (σ : Store), (ids.foldl Store.drop σ).placed = σ.placed
  | [], _ => rfl
  | id :: ids, σ => (Store.placed_drops ids (σ.drop id)).trans (σ.placed_drop id)

/-- A record changed in place that keeps its pages. -/
theorem Store.placed_mapRecord {σ : Store} {id : LayerId} {f : Record → Record} (hf : ∀ r, (f r).pages = r.pages) :
    (σ.mapRecord id f).placed = σ.placed := by
  refine Store.placed_congr rfl fun k => ?_
  simp only [Store.pagesOf, Store.mapRecord, update_apply]
  split
  · next e =>
    subst e
    cases σ.layer k with
    | none => rfl
    | some r => exact hf r
  · rfl

theorem Store.placed_park (σ : Store) (id : LayerId) : (σ.park id).placed = σ.placed := by
  unfold Store.park
  split
  · rfl
  · next r hr =>
    refine Store.placed_congr rfl fun k => ?_
    simp only [Store.pagesOf, update_apply]
    split
    · next e => subst e; rw [hr]; rfl
    · rfl

theorem Store.placed_renumber (σ : Store) : σ.renumber.placed = σ.placed := by
  refine Store.placed_congr rfl fun k => ?_
  simp only [Store.pagesOf, Store.renumber]
  cases σ.layer k with
  | none => rfl
  | some r => exact (σ.restamp_fields r).2.2.2

/-- A record whose pages become `m`, while the loose pages become `g`. -/
def Store.repage (σ : Store) (id : LayerId) (m g : Multiset Page) : Store :=
  { σ.mapRecord id fun r => { r with pages := m } with loose := g }

theorem Store.placed_repage {σ : Store} {id : LayerId} {r : Record} {m g : Multiset Page} (hr : σ.layer id = some r)
    (hm : g + m = σ.loose + r.pages) : (σ.repage id m g).placed = σ.placed := by
  refine Store.placed_move (id := id) (fun k hk => ?_) ?_
  · simp only [Store.pagesOf, Store.repage, Store.mapRecord, Function.update_of_ne hk]
  · simpa only [Store.pagesOf, Store.repage, Store.mapRecord, Function.update_self, hr, Option.map_some,
      Option.elim_some] using hm

/-- The pages of a record that is not pinned do not touch the store's order. -/
theorem Store.Legal.repage {σ : Store} (h : σ.Legal) {id : LayerId} {r : Record} (hr : σ.layer id = some r)
    (hp : r.pinned = false) (m g : Multiset Page) : (σ.repage id m g).Legal := by
  have one : ∀ x, σ.layer id = some x → x.pinned = false := fun x hx => by rw [hr] at hx; cases hx; exact hp
  have hl : (σ.mapRecord id fun r => { r with pages := m }).Legal :=
    ⟨⟨h.listed.mapRecord fun x _ => ⟨rfl, Iff.rfl, Iff.rfl⟩, h.stamped.mapRecord fun x _ hx => ⟨hx, rfl⟩,
      h.pinned.mapRecord fun x hx => ⟨fun hx' => (by rw [one x hx] at hx'; cases hx'), fun hx' => hx'⟩,
      h.held.mapRecord fun x _ => ⟨Iff.rfl, rfl⟩⟩,
      h.bounced.mapRecord fun x _ => ⟨Iff.rfl, rfl, fun h1 h2 _ => ⟨h1, h2⟩⟩⟩
  exact hl.loosened g

end Sys2Proof.Machine
end

section
/-! PROOFS. What the claims of pages do to the store (R54 to R58), and how the operations on the layer store, the pool and
the passes act on it. -/

namespace Sys2Proof.Machine

open Function (update update_apply)

/-! ## Claims -/

/-- What reclaims, and the claims for record `id` if one is named, can make of a store: PARKED layers dropped, and pages
moved between the loose ones and that record. -/
inductive Store.Claims (id : Option LayerId) (σ : Store) : Store → Prop
  | refl : Store.Claims id σ σ
  | drop {τ : Store} {v : LayerId} {r : Record} : Store.Claims id σ τ → τ.layer v = some r → r.state = .parked →
      Store.Claims id σ (τ.drop v)
  | repage {τ : Store} {k : LayerId} {r : Record} {m g : Multiset Page} : Store.Claims id σ τ → id = some k →
      τ.layer k = some r → g + m = τ.loose + r.pages → Store.Claims id σ (τ.repage k m g)

theorem Store.Claims.trans {id : Option LayerId} {σ τ υ : Store} (h : Claims id σ τ) (k : Claims id τ υ) :
    Claims id σ υ := by
  induction k with
  | refl => exact h
  | drop _ hr hst ih => exact ih.drop hr hst
  | repage _ hk hr hm ih => exact ih.repage hk hr hm

theorem Store.Claims.placed {id : Option LayerId} {σ τ : Store} (h : Claims id σ τ) : τ.placed = σ.placed := by
  induction h with
  | refl => rfl
  | drop _ _ _ ih => exact (Store.placed_drop _ _).trans ih
  | repage _ _ hr hm ih => exact (Store.placed_repage hr hm).trans ih

/-- A reclaim is no claim for a record in particular. -/
theorem Store.Claims.of_none {id : Option LayerId} {σ τ : Store} (h : Claims none σ τ) : Claims id σ τ := by
  induction h with
  | refl => exact .refl
  | drop _ hr hst ih => exact ih.drop hr hst
  | repage _ hk => cases hk

theorem Store.Claims.frame {id : Option LayerId} {σ τ : Store} (h : Claims id σ τ) :
    τ.pass = σ.pass ∧ τ.active = σ.active ∧ τ.idle = σ.idle ∧ τ.waiting = σ.waiting := by
  induction h with
  | refl => exact ⟨rfl, rfl, rfl, rfl⟩
  | drop _ _ _ ih =>
    obtain ⟨h1, h2, h3, h4, -⟩ := Store.drop_frame _ _
    exact ⟨h1.trans ih.1, h2.trans ih.2.1, h3.trans ih.2.2.1, h4.trans ih.2.2.2⟩
  | repage _ _ _ _ ih => exact ih

/-- A record that is not PARKED keeps all but its pages. -/
theorem Store.Claims.record {id : Option LayerId} {σ τ : Store} (h : Claims id σ τ) {k : LayerId} {r : Record}
    (hr : σ.layer k = some r) (hst : r.state ≠ .parked) : ∃ m, τ.layer k = some { r with pages := m } := by
  induction h with
  | refl => exact ⟨_, hr⟩
  | drop _ hv hvs ih =>
    obtain ⟨m, hm⟩ := ih
    refine ⟨m, Store.drop_layer_eq_some.2 ⟨?_, hm⟩⟩
    rintro rfl
    rw [hm] at hv
    cases hv
    exact hst hvs
  | @repage τ v _ m _ _ _ _ _ ih =>
    obtain ⟨m', hm⟩ := ih
    by_cases hk : k = v
    · subst hk
      exact ⟨m, Store.mapRecord_layer.2 (.inr ⟨rfl, _, hm, rfl⟩)⟩
    · exact ⟨m', Store.mapRecord_layer.2 (.inl ⟨hk, hm⟩)⟩

/-- Claims for a RECORDING or a FORMING layer keep the store in order. -/
theorem Store.Claims.legal {id : Option LayerId} {σ τ : Store} (h : Claims id σ τ) (hl : σ.Legal)
    (hid : ∀ k, id = some k → ∃ r, σ.layer k = some r ∧ r.state ≠ .parked ∧ r.state ≠ .live) : τ.Legal := by
  induction h with
  | refl => exact hl
  | drop _ hr hst ih => exact ih.drop_parked hr hst
  | @repage τ k r m g hc hk hr _ ih =>
    obtain ⟨x, hx, hxs, hxl⟩ := hid k hk
    obtain ⟨m', hm'⟩ := hc.record hx hxs
    rw [hr, Option.some.injEq] at hm'
    subst hm'
    refine ih.repage hr ?_ m g
    cases hp : x.pinned with
    | false => rfl
    | true =>
      obtain hst | hst := hl.pinned.states k x hx hp
      · exact absurd hst hxl
      · exact absurd hst hxs

/-- The store without record `id`. -/
def Store.without (σ : Store) (id : LayerId) : Store := { σ with layer := update σ.layer id none }

/-- Dropping one record and leaving another one out can be done in either order. -/
theorem Store.drop_without {σ : Store} {v id : LayerId} (h : v ≠ id) :
    (σ.drop v).without id = (σ.without id).drop v := by
  have hl : (σ.without id).layer v = σ.layer v := Function.update_of_ne h _ _
  cases hr : σ.layer v with
  | none => rw [Store.drop_of_none hr, Store.drop_of_none (hl.trans hr)]
  | some r =>
    simp only [Store.drop, hr, hl.trans hr]
    simp only [Store.without]
    rw [Function.update_comm h]

/-- While the record of a pass that starts is claimed for, the store is in order beside that record. -/
theorem Store.Claims.without {id : LayerId} {σ τ : Store} (h : Claims (some id) σ τ) {r : Record}
    (hr : σ.layer id = some r) (hst : r.state ≠ .parked) (hl : (σ.without id).Legal) : (τ.without id).Legal := by
  induction h with
  | refl => exact hl
  | @drop τ v x hc hx hxs ih =>
    have hne : v ≠ id := by
      rintro rfl
      obtain ⟨m, hm⟩ := hc.record hr hst
      rw [hx, Option.some.injEq] at hm
      rw [hm] at hxs
      exact hst hxs
    rw [Store.drop_without hne]
    exact ih.drop_parked ((Function.update_of_ne hne _ _).trans hx) hxs
  | @repage τ k x m g _ hk _ _ ih =>
    cases hk
    have : (τ.repage id m g).without id = { τ.without id with loose := g } := by
      simp only [Store.without, Store.repage, Store.mapRecord, Function.update_idem]
    rw [this]
    exact ih.loosened g

/-- No list grows by a claim. -/
theorem Store.Claims.stack_le {id : Option LayerId} {σ τ : Store} (h : Claims id σ τ) (t : TrackId) :
    (τ.stack t).length ≤ (σ.stack t).length := by
  induction h with
  | refl => exact Nat.le_refl _
  | @drop τ v x _ hx _ ih =>
    refine Nat.le_trans ?_ ih
    simp only [Store.drop, hx, update_apply]
    split
    · next e => exact e ▸ List.length_filter_le _ _
    · exact Nat.le_refl _
  | repage _ _ _ _ ih => exact ih

/-! ## What leaves the store as it is -/

theorem State.store_congr {s u : State} (hl : u.lys = s.lys) (hg : u.pgp = s.pgp) (hp : u.pse = s.pse)
    (hb : u.bne = s.bne) : u.store = s.store := by
  simp only [State.store, State.track, State.layer, State.pass, hl, hg, hp, hb]

theorem State.store_of_inner {s u : State} (h : u.inner = s.inner) : u.store = s.store := by
  obtain ⟨-, hl, hg, hp, -, -, hb, -⟩ := State.inner_fields h
  exact State.store_congr hl hg hp hb

theorem onlyEvents.store_eq {s u : State} (h : onlyEvents s u) : u.store = s.store := State.store_of_inner h.1

theorem store_emit (b : EventBody) (s : State) : (emit b s).store = s.store := (onlyEvents_emit b s).store_eq

theorem store_emitAt (i : BlockInfo) (b : EventBody) (s : State) : (emitAt i b s).store = s.store :=
  (onlyEvents_emitAt i b s).store_eq

theorem store_reply (lk : Link) (a b : Byte) (k : Bool) (c : ReplyCode) (p : Payload) (s : State) :
    (reply lk a b k c p s).store = s.store := State.store_of_inner (reply_inner ..)

theorem store_foldl {α : Type} {f : State → α → State} (h : ∀ s x, (f s x).store = s.store) :
    ∀ (xs : List α) (s : State), (xs.foldl f s).store = s.store
  | [], _ => rfl
  | x :: xs, s => (store_foldl h xs (f s x)).trans (h s x)

theorem store_ite {c : Prop} [Decidable c] {s u v : State} (h : u.store = s.store) (k : v.store = s.store) :
    (if c then u else v).store = s.store := by
  split
  · exact h
  · exact k

theorem store_withTrack {s : State} {t : TrackId} {x : Track} (h1 : x.stack = (s.track t).stack)
    (h2 : x.redo = (s.track t).redo) : (s.withTrack t x).store = s.store := by
  have h : ∀ u, ((s.withTrack t x).track u).stack = (s.track u).stack ∧
      ((s.withTrack t x).track u).redo = (s.track u).redo := by
    intro u
    rw [State.withTrack_track]
    split
    · next e => rw [e]; exact ⟨h1, h2⟩
    · exact ⟨rfl, rfl⟩
  simp only [State.store, State.withTrack_layer, State.withTrack_pgp, State.withTrack_pass, State.withTrack_bne, h]
  rfl

theorem store_withPass {s : State} {i : Input} {x : Option Pass}
    (h : (x.map fun p => (p.layer, p.track)) = (s.pass i).map fun p => (p.layer, p.track)) :
    (s.withPass i x).store = s.store := by
  have hp : ∀ j, (((s.withPass i x).pass j).map fun p => (p.layer, p.track)) =
      (s.pass j).map fun p => (p.layer, p.track) := by
    intro j
    rw [State.withPass_pass]
    split
    · next e => rw [e]; exact h
    · rfl
  simp only [State.store, State.withPass_layer, State.withPass_track, State.withPass_pgp, State.withPass_lys,
    State.withPass_bne, hp]
  rfl

theorem store_withInput {s : State} {i : Input} {x : InputRec} (h : x.pass = s.pass i) :
    (s.withInput i x).store = s.store := by
  have hp : ∀ j, (s.withInput i x).pass j = s.pass j := by
    intro j
    rw [State.withInput_pass]
    split
    · next e => rw [e]; exact h
    · rfl
  simp only [State.store, State.withInput_layer, State.withInput_track, State.withInput_pgp, State.withInput_lys,
    State.withInput_bne, hp]
  rfl

theorem store_mapPass {i : Input} {f : Pass → Pass} {s : State} (h : ∀ p, (f p).layer = p.layer ∧ (f p).track = p.track) :
    (mapPass i f s).store = s.store := by
  cases hp : s.pass i with
  | none => simp only [mapPass, hp]
  | some p =>
    rw [mapPass_of_some hp]
    refine store_withPass ?_
    rw [hp, Option.map_some, Option.map_some, (h p).1, (h p).2]

theorem store_storeBlock (id : LayerId) (pos : Nat) (b : Block) (s : State) : (storeBlock id pos b s).store = s.store := by
  rw [(storeBlock_mem id pos b s).1]
  rfl

theorem store_rampEnds (id : LayerId) (s : State) : (rampEnds id s).store = s.store := by
  unfold rampEnds
  split
  · rfl
  · exact store_ite (store_storeBlock ..) ((store_storeBlock ..).trans (store_storeBlock ..))

theorem store_lowMark (s : State) : (lowMark s).store = s.store := by
  obtain ⟨-, hp, -, -, hb, -⟩ := (onlyStore_lowMark s).fields
  simp only [State.store, State.track, State.layer, State.pass, lowMark_lys, lowMark_pgp, hp, hb]

theorem store_emptyTest (t : TrackId) (s : State) : (emptyTest t s).store = s.store :=
  store_ite (store_withTrack rfl rfl) rfl

theorem store_settleTrack (t : TrackId) (s : State) : (settleTrack t s).store = s.store :=
  store_ite (store_withTrack rfl rfl) rfl

theorem store_stopMeasuring (k : PassKind) (s : State) : (stopMeasuring k s).store = s.store := store_ite rfl rfl

theorem store_emitMarks (s : State) : (emitMarks s).store = s.store := by
  obtain h | h | h := emitMarks_cases s <;> rw [h]
  · rfl
  · exact (onlyEvents_sendBlockMarks s).store_eq

/-! ## What acts on the store -/

theorem store_withLayer (s : State) (id : LayerId) (x : Option Layer) :
    (s.withLayer id x).store = { s.store with layer := update s.store.layer id (x.map Layer.record) } := by
  have h : (fun k => ((s.withLayer id x).layer k).map Layer.record) =
      update (fun k => (s.layer k).map Layer.record) id (x.map Layer.record) := by
    funext k
    rw [State.withLayer_layer, update_apply]
    split <;> rfl
  simp only [State.store, State.withLayer_track, State.withLayer_pgp, State.withLayer_pass, State.withLayer_bne, h]
  rfl

/-- A layer changed in place. -/
theorem store_mapLayer {id : LayerId} {f : Layer → Layer} {g : Record → Record} (h : ∀ l, (f l).record = g l.record)
    (s : State) : (mapLayer id f s).store = s.store.mapRecord id g := by
  cases hl : s.layer id with
  | none =>
    have hn : s.store.layer id = none := congrArg (Option.map Layer.record) hl
    rw [Store.mapRecord, hn, Option.map_none, ← hn, Function.update_eq_self]
    simp only [mapLayer, hl]
  | some l =>
    rw [mapLayer_of_some hl, store_withLayer, Store.mapRecord, State.store_layer_of hl]
    simp only [Option.map_some, h]

theorem Store.mapRecord_self (σ : Store) (id : LayerId) : σ.mapRecord id (fun r => r) = σ := by
  rw [Store.mapRecord, Option.map_id']
  simp only [Function.update_eq_self]

/-- A change of a layer that the store does not read. -/
theorem store_mapLayer_same {id : LayerId} {f : Layer → Layer} (h : ∀ l, (f l).record = l.record) (s : State) :
    (mapLayer id f s).store = s.store := (store_mapLayer (g := fun r => r) h s).trans (Store.mapRecord_self _ _)

theorem store_dropLayer (id : LayerId) (s : State) : (dropLayer id s).store = s.store.drop id := by
  cases hl : s.layer id with
  | none => rw [dropLayer_of_none hl, Store.drop_of_none (congrArg (Option.map Layer.record) hl)]
  | some l =>
    obtain ⟨-, hpse, -, -, hbne, -⟩ := (onlyStore_dropLayer id s).fields
    have hlayer : (fun k => ((dropLayer id s).layer k).map Layer.record) =
        update (fun k => (s.layer k).map Layer.record) id none := by
      funext k
      rw [dropLayer_layer, update_apply]
      split <;> rfl
    have hstack : (fun t => ((dropLayer id s).track t).stack) =
        update (fun t => (s.track t).stack) l.track ((s.track l.track).stack.filter (· ≠ id)) := by
      funext t
      rw [dropLayer_track hl, update_apply]
      split
      · next e => rw [e]; rfl
      · rfl
    have hredo : (fun t => ((dropLayer id s).track t).redo) =
        update (fun t => (s.track t).redo) l.track ((s.track l.track).redo.filter (· ≠ id)) := by
      funext t
      rw [dropLayer_track hl, update_apply]
      split
      · next e => rw [e]; rfl
      · rfl
    have hloose : (↑(s.pgp.free ++ l.map.map (·.2) ++ s.pgp.reserved) : Multiset Page) =
        ↑(s.pgp.free ++ s.pgp.reserved) + ↑(l.map.map (·.2)) := by
      simp only [← Multiset.coe_add]
      exact add_right_comm _ _ _
    simp only [Store.drop, State.store_layer_of hl]
    simp only [State.store, State.pass, hpse, hbne, hlayer, hstack, hredo, dropLayer_pgp hl, hloose,
      (dropLayer_counters id s).2, Layer.record, Multiset.coe_card, List.length_map]

theorem store_freeLayer (id : LayerId) (s : State) : (freeLayer id s).store = s.store.drop id := by
  cases hl : s.layer id with
  | none =>
    rw [Store.drop_of_none (congrArg (Option.map Layer.record) hl)]
    simp only [freeLayer, hl]
  | some l =>
    simp only [freeLayer, hl]
    rw [store_emptyTest, store_dropLayer]

theorem store_foldl_drop {f : State → LayerId → State} (h : ∀ s id, (f s id).store = s.store.drop id) :
    ∀ (ids : List LayerId) (s : State), (ids.foldl f s).store = ids.foldl Store.drop s.store
  | [], _ => rfl
  | id :: ids, s => by rw [List.foldl_cons, store_foldl_drop h ids, h, List.foldl_cons]

theorem store_freeLayers (ids : List LayerId) (s : State) :
    (freeLayers ids s).store = ids.foldl Store.drop s.store := by
  unfold freeLayers
  split
  · next h => rw [List.isEmpty_iff.1 h]; rfl
  · rw [store_lowMark]
    exact store_foldl_drop (fun s id => store_freeLayer id s) ids s

theorem store_clearPass (late : Bool) (i : Input) (s : State) : (clearPass late i s).store = s.store.clear i := by
  have h : (fun j => ((clearPass late i s).pass j).map fun p => (p.layer, p.track)) =
      update (fun j => (s.pass j).map fun p => (p.layer, p.track)) i none := by
    funext j
    rw [clearPass, State.withInput_pass, update_apply]
    split <;> rfl
  simp only [State.store, h, Store.clear]
  rfl

end Sys2Proof.Machine
end

section
/-! PROOFS. The reclaim victim (R57), and the claims, trims and parks of the hub as they act on the store. -/

namespace Sys2Proof.Machine

open Function (update update_apply)

/-! ## The victim (R57) -/

/-- The stamp by which a record may be reclaimed. -/
def State.reclaimAt (s : State) (id : LayerId) : Option Nat := (s.layer id).bind Layer.reclaimStamp

theorem State.reclaimAt_eq_some {s : State} {id : LayerId} {n : Nat} : s.reclaimAt id = some n ↔
    ∃ l, s.layer id = some l ∧ l.state = .parked ∧ l.pinned = false ∧ l.stamp.getD 0 = n := by
  simp only [State.reclaimAt, Option.bind_eq_some_iff, Layer.reclaimStamp, Option.ite_none_right_eq_some,
    Bool.and_eq_true, decide_eq_true_eq, Bool.not_eq_true', Option.some.injEq, and_assoc]

/-- The oldest candidate among the records seen. -/
def oldestOf (s : State) (seen : List LayerId) : Option (LayerId × Nat) → Prop
  | none => ∀ w ∈ seen, s.reclaimAt w = none
  | some (v, n) => v ∈ seen ∧ s.reclaimAt v = some n ∧
      ∀ w ∈ seen, ∀ m, s.reclaimAt w = some m → n < m ∨ (n = m ∧ v ≤ w)

theorem oldestOf_olderVictim {s : State} {seen : List LayerId} {best : Option (LayerId × Nat)} {k : LayerId}
    (h : oldestOf s seen best) (hk : ∀ w ∈ seen, w < k) : oldestOf s (seen ++ [k]) (olderVictim s best k) := by
  have mem : ∀ w, w ∈ seen ++ [k] ↔ w ∈ seen ∨ w = k := fun w => by simp
  cases hs : s.reclaimAt k with
  | none =>
    have hb : olderVictim s best k = best := by
      rw [State.reclaimAt] at hs
      simp only [olderVictim, hs]
    rw [hb]
    cases best with
    | none =>
      intro w hw
      obtain hw | rfl := (mem w).1 hw
      · exact h w hw
      · exact hs
    | some b =>
      obtain ⟨v, n⟩ := b
      obtain ⟨h1, h2, h3⟩ := h
      refine ⟨(mem v).2 (.inl h1), h2, fun w hw m hm => ?_⟩
      obtain hw | rfl := (mem w).1 hw
      · exact h3 w hw m hm
      · rw [hs] at hm
        cases hm
  | some n =>
    rw [State.reclaimAt] at hs
    cases best with
    | none =>
      simp only [olderVictim, hs]
      refine ⟨(mem k).2 (.inr rfl), hs, fun w hw m hm => ?_⟩
      obtain hw | rfl := (mem w).1 hw
      · rw [h w hw] at hm
        cases hm
      · rw [State.reclaimAt, hs, Option.some.injEq] at hm
        exact .inr ⟨hm, le_refl _⟩
    | some b =>
      obtain ⟨v, b⟩ := b
      obtain ⟨h1, h2, h3⟩ := h
      simp only [olderVictim, hs]
      split
      · next hlt =>
        refine ⟨(mem k).2 (.inr rfl), hs, fun w hw m hm => ?_⟩
        obtain hw | rfl := (mem w).1 hw
        · obtain hbm | ⟨hbm, -⟩ := h3 w hw m hm
          · exact .inl (hlt.trans hbm)
          · exact .inl (hbm ▸ hlt)
        · rw [State.reclaimAt, hs, Option.some.injEq] at hm
          exact .inr ⟨hm, le_refl _⟩
      · next hge =>
        refine ⟨(mem v).2 (.inl h1), h2, fun w hw m hm => ?_⟩
        obtain hw | rfl := (mem w).1 hw
        · exact h3 w hw m hm
        · rw [State.reclaimAt, hs, Option.some.injEq] at hm
          subst hm
          obtain hlt | heq := Nat.lt_or_eq_of_le (Nat.le_of_not_lt hge)
          · exact .inl hlt
          · exact .inr ⟨heq, (hk v h1).le⟩

theorem oldestOf_foldl {s : State} : ∀ (ids seen : List LayerId) (best : Option (LayerId × Nat)),
    oldestOf s seen best → (seen ++ ids).Pairwise (· < ·) → oldestOf s (seen ++ ids) (ids.foldl (olderVictim s) best)
  | [], seen, best, h, _ => by rwa [List.append_nil]
  | k :: ids, seen, best, h, hp => by
    have hk : ∀ w ∈ seen, w < k := fun w hw => (List.pairwise_append.1 hp).2.2 w hw k (by simp)
    have he : seen ++ k :: ids = seen ++ [k] ++ ids := by simp
    rw [he] at hp ⊢
    exact oldestOf_foldl ids (seen ++ [k]) _ (oldestOf_olderVictim h hk) hp

/-- The victim is the PARKED, unpinned layer with the smallest park stamp, the lowest record of several (R57). -/
theorem State.victim_iff (s : State) (v : LayerId) : s.victim = some v ↔
    ∃ n, s.reclaimAt v = some n ∧ ∀ w m, s.reclaimAt w = some m → n < m ∨ (n = m ∧ v ≤ w) := by
  have hall : oldestOf s allLayers (allLayers.foldl (olderVictim s) none) :=
    oldestOf_foldl allLayers [] none (fun w hw => absurd hw (List.not_mem_nil)) allLayers_ascending
  rw [State.victim]
  cases hb : allLayers.foldl (olderVictim s) none with
  | none =>
    rw [hb] at hall
    simp only [Option.map_none, reduceCtorEq, false_iff, not_exists, not_and]
    intro n hn
    rw [hall v (mem_allLayers v)] at hn
    cases hn
  | some b =>
    obtain ⟨u, n⟩ := b
    rw [hb] at hall
    obtain ⟨-, hu, hmin⟩ := hall
    simp only [Option.map_some, Option.some.injEq]
    constructor
    · rintro rfl
      exact ⟨n, hu, fun w m hm => hmin w (mem_allLayers w) m hm⟩
    · rintro ⟨m, hv, hvmin⟩
      obtain h1 | ⟨rfl, h1⟩ := hmin v (mem_allLayers v) m hv
      · obtain h2 | ⟨h2, -⟩ := hvmin u n hu
        · exact absurd (h1.trans h2) (Nat.lt_irrefl _)
        · exact absurd h1 (h2 ▸ Nat.lt_irrefl _)
      · obtain h2 | ⟨-, h2⟩ := hvmin u n hu
        · exact absurd h2 (Nat.lt_irrefl _)
        · exact le_antisymm h1 h2

/-- A victim is PARKED and not pinned. -/
theorem State.victim_parked {s : State} {v : LayerId} (h : s.victim = some v) :
    ∃ l, s.layer v = some l ∧ l.state = .parked ∧ l.pinned = false := by
  obtain ⟨n, hn, -⟩ := (s.victim_iff v).1 h
  obtain ⟨l, hl, hst, hp, -⟩ := State.reclaimAt_eq_some.1 hn
  exact ⟨l, hl, hst, hp⟩

/-! ## Reclaims and claims (R54 to R58) -/

/-- A reclaim drops its victim. -/
theorem store_reclaimOne {need : Need} {s u : State} (h : reclaimOne need s = some u) :
    ∃ v, s.victim = some v ∧ u.store = s.store.drop v := by
  unfold reclaimOne at h
  split at h
  · cases h
  · next v hv =>
    split at h
    · cases h
    · simp only [Option.some.injEq] at h
      subst h
      refine ⟨v, hv, ?_⟩
      rw [store_emit]
      exact (State.store_congr rfl rfl rfl rfl : State.store _ = _).trans (store_freeLayer v s)

theorem claims_reclaimRun (need : Need) (met : State → Bool) :
    ∀ (n : Nat) (s : State), Store.Claims none s.store (reclaimRun need met n s).store
  | 0, _ => .refl
  | n + 1, s => by
    unfold reclaimRun
    split
    · exact .refl
    · split
      · exact .refl
      · next u h =>
        obtain ⟨v, hv, hu⟩ := store_reclaimOne h
        obtain ⟨l, hl, hst, -⟩ := State.victim_parked hv
        refine .trans ?_ (claims_reclaimRun need met n u)
        rw [hu]
        exact Store.Claims.refl.drop (State.store_layer_of hl) hst

/-- A page entered in an absent slot joins the pages of the map. -/
theorem putSlot_perm {slot : Nat} {pg : Page} : ∀ {m : List (Nat × Page)}, slotPage m slot = none →
    ((putSlot slot pg m).map (·.2)).Perm (pg :: m.map (·.2))
  | [], _ => .refl _
  | (a, b) :: rest, h => by
    unfold slotPage at h
    split at h
    · cases h
    · next hne =>
      unfold putSlot
      split
      · exact .refl _
      · split
        · next e => exact absurd e.symm hne
        · exact ((putSlot_perm h).cons b).trans (.swap _ _ _)

/-- A record's page map and the free list or the reservation change together. -/
theorem store_withPages {s : State} {id : LayerId} {l : Layer} (hl : s.layer id = some l) {g : Pgp}
    (hg : g.pinnedTotal = s.pgp.pinnedTotal) (m : List (Nat × Page)) :
    ((s.withPgp g).withLayer id (some { l with map := m })).store =
      s.store.repage id ↑(m.map (·.2)) ↑(g.free ++ g.reserved) := by
  have h : (s.withPgp g).store = { s.store with loose := ↑(g.free ++ g.reserved) } := by
    simp only [State.store, State.withPgp_track, State.withPgp_layer, State.withPgp_pass, State.withPgp_bne,
      State.withPgp_lys, State.withPgp_pgp, hg]
    rfl
  rw [store_withLayer, h]
  simp only [Store.repage, Store.mapRecord, State.store_layer_of hl]
  rfl

theorem claims_moveHead (id : LayerId) (slot : Nat) (s : State) :
    Store.Claims (some id) s.store (moveHead id slot s).1.store := by
  unfold moveHead
  split
  · next pg rest l hf hl =>
    split
    · exact .refl
    · next hs =>
      have hs : slotPage l.map slot = none := by simpa using hs
      dsimp only
      rw [store_withPages hl (g := { s.pgp with free := rest }) rfl]
      refine Store.Claims.refl.repage rfl (State.store_layer_of hl) ?_
      have hp : (↑((putSlot slot pg l.map).map (·.2)) : Multiset Page) = ↑(pg :: l.map.map (·.2)) :=
        Multiset.coe_eq_coe.2 (putSlot_perm hs)
      rw [hp]
      refine Multiset.coe_eq_coe.2 ?_
      rw [hf]
      exact List.perm_middle
  · exact .refl

theorem claims_claimPage (id : LayerId) (slot : Nat) (s : State) :
    Store.Claims (some id) s.store (claimPage id slot s).1.store := by
  unfold claimPage
  extract_lets r
  split
  · dsimp only
    rw [store_lowMark]
    exact (claims_reclaimRun _ _ _ s).of_none.trans (claims_moveHead _ _ _)
  · exact .refl

theorem claims_foldl {α : Type} {id : Option LayerId} {f : State → α → State}
    (h : ∀ s x, Store.Claims id s.store (f s x).store) : ∀ (xs : List α) (s : State),
    Store.Claims id s.store (xs.foldl f s).store
  | [], _ => .refl
  | x :: xs, s => (h s x).trans (claims_foldl h xs (f s x))

theorem claims_claimGroup (id : LayerId) (slots : List Nat) (s : State) :
    Store.Claims (some id) s.store (claimGroup id slots s).1.store := by
  unfold claimGroup
  split
  · exact .refl
  · dsimp only
    rw [store_lowMark]
    exact (claims_reclaimRun _ _ _ s).of_none.trans (claims_foldl (fun s slot => claims_moveHead id slot s) _ _)

theorem claims_settlePages (id : LayerId) (here d len : Nat) (s : State) :
    Store.Claims (some id) s.store (settlePages id here d len s).1.store := by
  unfold settlePages
  extract_lets r r1
  have hr : Store.Claims (some id) s.store r.1.store := by
    simp only [r]
    split
    · exact claims_claimGroup ..
    · exact .refl
  split
  · exact hr
  · exact hr.trans (claims_claimPage ..)

theorem claims_claimSlot (id : LayerId) (slot : Nat) (s : State) :
    Store.Claims (some id) s.store (claimSlot id slot s).1.store := by
  unfold claimSlot
  split
  · exact .refl
  · exact claims_claimPage ..

/-- A record found is FREE, and none but PARKED layers have gone for it (R28). -/
theorem claims_findRecord {s u : State} {id : LayerId} (h : findRecord s = some (id, u)) :
    Store.Claims none s.store u.store := by
  unfold findRecord at h
  split at h
  · cases h
    exact .refl
  · simp only [Option.map_eq_some_iff] at h
    obtain ⟨i, hi, he⟩ := h
    cases he
    rw [store_lowMark]
    exact claims_reclaimRun ..

/-- A trim returns pages of the record to the free list (R63). -/
theorem claims_trimTo (id : LayerId) (n : Nat) (s : State) :
    Store.Claims (some id) s.store (trimTo id n s).store := by
  unfold trimTo
  split
  · next l hl =>
    split
    · simp only [trimLayer, hl]
      rw [store_lowMark]
      have hkept : ∀ (keep : List (Nat × Page)) (g : List Page), (givePages g
          (s.withLayer id (some { l with written := n, map := keep }))).store =
            s.store.repage id ↑(keep.map (·.2)) ↑(s.pgp.free ++ g ++ s.pgp.reserved) := by
        intro keep g
        have h : (givePages g (s.withLayer id (some { l with written := n, map := keep }))).store =
            { (s.withLayer id (some { l with written := n, map := keep })).store with
              loose := ↑(s.pgp.free ++ g ++ s.pgp.reserved) } := rfl
        rw [h, store_withLayer]
        simp only [Store.repage, Store.mapRecord, State.store_layer_of hl]
        rfl
      rw [hkept]
      refine Store.Claims.refl.repage rfl (State.store_layer_of hl) ?_
      generalize slotKept l.start n (l.length.getD 240000) = q
      have hperm := (List.filter_append_perm (fun c : Nat × Page => q c.1) l.map).map (·.2)
      rw [List.map_append] at hperm
      have hpages : (↑(l.map.map (·.2)) : Multiset Page) =
          ↑((l.map.filter fun c => q c.1).map (·.2)) + ↑((l.map.filter fun c => !q c.1).map (·.2)) :=
        (Multiset.coe_eq_coe.2 hperm).symm
      simp only [Layer.record, State.store, hpages, ← Multiset.coe_add]
      abel
    · exact .refl
  · exact .refl

/-! ## Parks (R31) -/

theorem State.parkedBelow_store (s : State) (n : Nat) : s.store.parkedBelow n = s.parkedBelow n := by
  have h : ∀ id, (s.store.layer id).any (fun r => r.state = .parked && r.stamp.getD 0 < n) =
      (s.layer id).any fun l => l.state = .parked && l.stamp.getD 0 < n := by
    intro id
    have hl : s.store.layer id = (s.layer id).map Layer.record := rfl
    rw [hl]
    cases s.layer id <;> rfl
  simp only [Store.parkedBelow, State.parkedBelow, h]

/-- The record `id` with its stamp numbered anew after those of `s`. -/
def restampLayer (s x : State) (id : LayerId) : State :=
  match s.layer id with
  | none => x
  | some l =>
    if l.state = .parked then x.withLayer id (some { l with stamp := some (s.parkedBelow (l.stamp.getD 0)) }) else x

theorem restampLayer_store {s x : State} {id : LayerId} (h : x.store.layer id = s.store.layer id) :
    (restampLayer s x id).store = x.store.mapRecord id s.store.restamp := by
  unfold restampLayer
  cases hl : s.layer id with
  | none =>
    have hn : x.store.layer id = none := h.trans (congrArg (Option.map Layer.record) hl)
    rw [Store.mapRecord, hn, Option.map_none, ← hn, Function.update_eq_self]
  | some l =>
    have hr := h.trans (State.store_layer_of hl)
    have hst : l.record.state = l.state := rfl
    rw [Store.mapRecord, hr, Option.map_some]
    dsimp only
    split
    · next hp =>
      rw [store_withLayer, Store.restamp, if_pos (hst.trans hp), State.parkedBelow_store]
      rfl
    · next hp =>
      rw [Store.restamp, if_neg (fun e => hp (hst.symm.trans e)), ← hr, Function.update_eq_self]

theorem restampLayers_store (s : State) : ∀ (ids : List LayerId) (x : State), ids.Nodup →
    (∀ id ∈ ids, x.store.layer id = s.store.layer id) → (ids.foldl (restampLayer s) x).store =
      { x.store with layer := fun id =>
          if id ∈ ids then (s.store.layer id).map s.store.restamp else x.store.layer id }
  | [], x, _, _ => by simp
  | k :: ids, x, hnd, h => by
    obtain ⟨hk, hnd⟩ := List.nodup_cons.1 hnd
    have hx := restampLayer_store (h k (by simp))
    rw [List.foldl_cons, restampLayers_store s ids _ hnd, hx]
    · simp only [Store.mapRecord, List.mem_cons, update_apply]
      congr 1
      funext id
      by_cases e : id = k
      · subst e
        simp [hk, h id (by simp)]
      · simp [e]
    · intro id hid
      have hne : id ≠ k := fun e => hk (e ▸ hid)
      rw [hx, Store.mapRecord]
      exact (Function.update_of_ne hne _ _).trans (h id (by simp [hid]))

theorem store_renumberStamps (s : State) : (renumberStamps s).store = s.store.renumber := by
  have hfold : (allLayers.foldl (restampLayer s) s).store = { s.store with
      layer := fun id => (s.store.layer id).map s.store.restamp } := by
    rw [restampLayers_store s allLayers s (allLayers_ascending.imp fun h => ne_of_lt h) fun _ _ => rfl]
    simp only [mem_allLayers, if_true]
  have hparked : ∀ id, (s.store.layer id).any (fun r => r.state = .parked) =
      (s.layer id).any fun l => l.state = .parked := by
    intro id
    have hl : s.store.layer id = (s.layer id).map Layer.record := rfl
    rw [hl]
    cases s.layer id <;> rfl
  have h : (renumberStamps s).store = { (allLayers.foldl (restampLayer s) s).store with
      parks := (allLayers.filter fun id => (s.layer id).any fun l => l.state = .parked).length } := rfl
  rw [h, hfold]
  simp only [Store.renumber, hparked]

/-- A track with layer `id` gone from the stack to the redo list's tail. -/
def Track.parking (tr : Track) (id : LayerId) : Track :=
  { tr with stack := tr.stack.filter (· ≠ id), redo := tr.redo ++ [id] }

/-- A park with the park counter not used up. -/
def parkNext (id : LayerId) (x : State) : State :=
  match x.layer id with
  | none => x
  | some l =>
    let s1 := x.withTrack l.track ((x.track l.track).parking id)
    let s2 := s1.withLayer id (some { l with state := .parked, stamp := some s1.lys.parks })
    { s2 with lys.parks := s2.lys.parks + 1 }

theorem parkLayer_eq (id : LayerId) (s : State) :
    parkLayer id s = parkNext id (if s.lys.parks = 4294967295 then renumberStamps s else s) := rfl

theorem store_parkNext (id : LayerId) (x : State) : (parkNext id x).store = x.store.park id := by
  unfold parkNext
  split
  · next hl =>
    have hn : x.store.layer id = none := congrArg (Option.map Layer.record) hl
    simp only [Store.park, hn]
  · next l hl =>
    extract_lets s1 s2 _
    have hstack : (fun t => (s1.track t).stack) =
        update (fun t => (x.track t).stack) l.track ((x.track l.track).stack.filter (· ≠ id)) := by
      funext t
      rw [State.withTrack_track, update_apply]
      split <;> rfl
    have hredo : (fun t => (s1.track t).redo) =
        update (fun t => (x.track t).redo) l.track ((x.track l.track).redo ++ [id]) := by
      funext t
      rw [State.withTrack_track, update_apply]
      split <;> rfl
    have h1 : s1.store = { x.store with
        stack := update x.store.stack l.track ((x.track l.track).stack.filter (· ≠ id)),
        redo := update x.store.redo l.track ((x.track l.track).redo ++ [id]) } := by
      simp only [State.store, hstack, hredo]
      rfl
    have h2 : ({ s2 with lys.parks := s2.lys.parks + 1 } : State).store =
        { s2.store with parks := s2.store.parks + 1 } := rfl
    refine h2.trans ?_
    rw [store_withLayer, h1]
    simp only [Store.park, State.store_layer_of hl]
    rfl

/-- A park, the stamps numbered anew before it where the counter is used up. -/
theorem store_parkLayer (id : LayerId) (s : State) : (parkLayer id s).store =
    (if s.lys.parks = 4294967295 then s.store.renumber else s.store).park id := by
  rw [parkLayer_eq, store_parkNext]
  split
  · rw [store_renumberStamps]
  · rfl

end Sys2Proof.Machine
end

section
/-! PROOFS. The operations of the pass engine keep the pages placed and the store in order. -/

namespace Sys2Proof.Machine

open Function (update update_apply)

/-- `u` comes of `s` by something that keeps the pages placed (R51) and the store in order (R29, R31, R64). -/
structure keepsStore (s u : State) : Prop where
  placed : s.store.placed = everyPage → u.store.placed = everyPage
  legal : s.store.Legal → u.store.Legal

theorem keepsStore.refl (s : State) : keepsStore s s := ⟨id, id⟩

theorem keepsStore.trans {s u v : State} (h : keepsStore s u) (k : keepsStore u v) : keepsStore s v :=
  ⟨fun x => k.placed (h.placed x), fun x => k.legal (h.legal x)⟩

theorem keepsStore.of_eq {s u : State} (h : u.store = s.store) : keepsStore s u :=
  ⟨fun x => h ▸ x, fun x => h ▸ x⟩

/-- What has an effect that keeps the pages placed, and keeps the store in order. -/
theorem keepsStore.of_placed {s u : State} (h : u.store.placed = s.store.placed)
    (hl : s.store.Legal → u.store.Legal) : keepsStore s u := ⟨fun x => h.trans x, hl⟩

theorem keepsStore_ite {c : Prop} [Decidable c] {s u v : State} (h : keepsStore s u) (k : keepsStore s v) :
    keepsStore s (if c then u else v) := by
  split
  · exact h
  · exact k

theorem keepsStore_foldl {α : Type} {f : State → α → State} (h : ∀ s x, keepsStore s (f s x)) :
    ∀ (xs : List α) (s : State), keepsStore s (xs.foldl f s)
  | [], s => .refl s
  | x :: xs, s => (h s x).trans (keepsStore_foldl h xs (f s x))

theorem keepsStore_of_events {s u : State} (h : onlyEvents s u) : keepsStore s u := .of_eq h.store_eq

theorem keepsStore_emit (b : EventBody) (s : State) : keepsStore s (emit b s) := .of_eq (store_emit b s)

theorem keepsStore_lowMark (s : State) : keepsStore s (lowMark s) := .of_eq (store_lowMark s)

theorem keepsStore_mapPass {i : Input} {f : Pass → Pass} (s : State)
    (h : ∀ p, (f p).layer = p.layer ∧ (f p).track = p.track) : keepsStore s (mapPass i f s) := .of_eq (store_mapPass h)

/-- Claims for a layer that no pass but its own and no bounce writes keep the store (R54, R55, R63). -/
theorem keepsStore_of_claims {id : Option LayerId} {s u : State} (h : Store.Claims id s.store u.store)
    (hid : ∀ k, id = some k → s.store.Legal → ∃ r, s.store.layer k = some r ∧ r.state ≠ .parked ∧ r.state ≠ .live) :
    keepsStore s u := .of_placed h.placed fun hl => h.legal hl fun k hk => hid k hk hl

/-- Claims for the layer of an open pass. -/
theorem keepsStore_of_pass_claims {s u : State} {i : Input} {p : Pass} (hp : s.pass i = some p)
    (h : Store.Claims (some p.layer) s.store u.store) : keepsStore s u := by
  refine keepsStore_of_claims h fun k hk hl => ?_
  cases hk
  obtain ⟨r, hr, hst, -⟩ := hl.held.recording i _ _ (State.store_pass_of hp)
  exact ⟨r, hr, by rw [hst]; decide, by rw [hst]; decide⟩

/-! ## Ends, cuts and aborts -/

theorem State.store_clear_drop {s : State} {i : Input} (p : Pass) (late : Bool) :
    (stopMeasuring p.kind (settleTrack p.track (dropLayer p.layer (clearPass late i s)))).store =
      (s.store.clear i).drop p.layer := by
  rw [store_stopMeasuring, store_settleTrack, store_dropLayer, store_clearPass]

/-- A pass that leaves nothing (R91). -/
theorem keepsStore_dropPass {s : State} {i : Input} {p : Pass} (hp : s.pass i = some p) (late : Bool) :
    keepsStore s (stopMeasuring p.kind (settleTrack p.track (dropLayer p.layer (clearPass late i s)))) := by
  have h := State.store_clear_drop (s := s) (i := i) p late
  refine .of_placed ?_ fun hl => h ▸ hl.abort (State.store_pass_of hp)
  rw [h, Store.placed_drop]
  rfl

/-- A pass that leaves its layer LIVE (R33). -/
theorem keepsStore_endLive {s u : State} {i : Input} {p : Pass} (hp : s.pass i = some p)
    (h : u.store = (s.store.clear i).mapRecord p.layer Record.live) : keepsStore s u := by
  refine .of_placed ?_ fun hl => h ▸ hl.endLive (State.store_pass_of hp)
  rw [h, Store.placed_mapRecord (f := Record.live) fun _ => rfl]
  rfl

theorem keepsStore_finishCut (cause : CutCause) (i : Input) (s : State) : keepsStore s (finishCut cause i s) := by
  unfold finishCut
  split
  · exact .refl s
  · next p hp =>
    extract_lets l n s1 s2
    split
    · exact (keepsStore_dropPass hp false).trans ((keepsStore_lowMark _).trans (keepsStore_emit _ _))
    · refine (keepsStore_endLive hp ?_).trans (keepsStore_emit _ _)
      simp only [s2]
      rw [store_mapLayer (g := Record.live) fun _ => rfl, store_rampEnds, store_clearPass]

theorem store_fixLength (p : Pass) (k len : Nat) (s : State) : (fixLength p k len s).store = s.store :=
  (store_mapLayer_same (f := fun l => { l with length := some (k * len) }) (fun _ => rfl) _).trans (store_withTrack rfl rfl)

/-- What a cut of a first pass fixes changes the store by the trim alone. -/
theorem claims_fixAtCut (marks : Bool) (p : Pass) (s : State) :
    Store.Claims (some p.layer) s.store (fixAtCut marks p s).store := by
  unfold fixAtCut
  split
  · exact .refl
  · split
    · extract_lets s1 len
      refine .trans ?_ (claims_trimTo _ _ _)
      rw [store_fixLength]
      split
      · rw [store_emitMarks]
        exact .refl
      · exact .refl
    · exact .refl
  · split
    · split
      · rw [store_fixLength]
        exact .refl
      · exact .refl
    · exact .refl

theorem keepsStore_withPass {s : State} {i : Input} {x : Option Pass}
    (h : (x.map fun p => (p.layer, p.track)) = (s.pass i).map fun p => (p.layer, p.track)) :
    keepsStore s (s.withPass i x) := .of_eq (store_withPass h)

theorem keepsStore_cutPass (cause : CutCause) (marks : Bool) (i : Input) (s : State) :
    keepsStore s (cutPass cause marks i s) := by
  unfold cutPass
  split
  · exact .refl s
  · next p hp =>
    refine keepsStore_ite (.refl s) ?_
    have h1 := keepsStore_of_pass_claims hp (claims_fixAtCut marks p s)
    have hpass := congrFun (claims_fixAtCut marks p s).frame.1 i
    refine h1.trans (keepsStore_ite (keepsStore_withPass ?_) (keepsStore_finishCut _ _ _))
    exact (State.store_pass_of hp).symm.trans hpass.symm

theorem keepsStore_cutAll (cause : CutCause) (marks : Bool) (s : State) : keepsStore s (cutAll cause marks s) :=
  keepsStore_foldl (fun s i => keepsStore_cutPass cause marks i s) allInputs s

theorem keepsStore_abortPass (mark event : Bool) (i : Input) (s : State) :
    keepsStore s (abortPass mark event i s) := by
  unfold abortPass
  split
  · exact .refl s
  · next p hp =>
    have h := (keepsStore_dropPass hp false).trans
      (keepsStore_ite (c := mark = true) (keepsStore_lowMark _) (.refl _))
    exact keepsStore_ite (h.trans (keepsStore_emit _ _)) h

theorem keepsStore_abortTrack (t : TrackId) : ∀ (n : Nat) (s : State), keepsStore s (abortTrack t n s)
  | 0, s => .refl s
  | n + 1, s => by
    unfold abortTrack
    split
    · exact .refl s
    · exact (keepsStore_abortPass _ _ _ _).trans (keepsStore_abortTrack t n _)

/-! ## Starts -/

/-- The unpinned layers of a redo list freed (R32). -/
theorem keepsStore_freeRedo (t : TrackId) (s : State) : keepsStore s (freeRedo t s) := by
  unfold freeRedo
  extract_lets gone
  refine keepsStore_ite (.refl s) (.trans ?_ (keepsStore_lowMark _))
  have h := store_foldl_drop (f := fun s id => dropLayer id s) (fun s id => store_dropLayer id s) gone s
  have hgone : ∀ id ∈ gone, id ∈ s.store.redo t := fun id hid => (List.mem_filter.1 hid).1
  refine .of_placed (by rw [h, Store.placed_drops]) fun hl => ?_
  rw [h]
  exact hl.drops (fun id hid => (hl.redo_unheld (hgone id hid)).1) fun id hid => (hl.redo_unheld (hgone id hid)).2

/-- The redo list freed makes no stack longer and ends no pass. -/
theorem freeRedo_room (t : TrackId) (s : State) : (freeRedo t s).store.pass = s.store.pass ∧
    (s.store.Legal → ∀ u, ((freeRedo t s).store.stack u).length ≤ (s.store.stack u).length) := by
  unfold freeRedo
  extract_lets gone
  split
  · exact ⟨rfl, fun _ _ => Nat.le_refl _⟩
  · rw [store_lowMark, store_foldl_drop (f := fun s id => dropLayer id s) (fun s id => store_dropLayer id s) gone s]
    refine ⟨(Store.drops_frame gone _).1, fun hl u => ?_⟩
    rw [(hl.listed.drops_lists (ids := gone)).1]
    exact List.length_filter_le _ _

/-- A record filled for a pass that has not entered its track yet. -/
theorem store_fill {s : State} {id : LayerId} (l : Layer) (hn : s.layer id = none) (hm : l.map = []) :
    ((s.withLayer id (some l)).store.without id) = s.store ∧ (s.withLayer id (some l)).store.placed = s.store.placed ∧
      (s.withLayer id (some l)).store.layer id = some l.record := by
  have hs : s.store.layer id = none := congrArg (Option.map Layer.record) hn
  rw [store_withLayer]
  refine ⟨?_, Store.placed_congr rfl fun k => ?_, Function.update_self _ _ _⟩
  · simp only [Store.without, Function.update_idem]
    rw [← hs, Function.update_eq_self]
  · simp only [Store.pagesOf, update_apply]
    split
    · next e =>
      subst e
      rw [hs]
      simp [Layer.record, hm]
    · rfl

/-- A pass entered over a record that is filled already. -/
theorem Store.enter_without (σ : Store) (i : Input) (t : TrackId) (id : LayerId) (r : Record) :
    (σ.without id).enter i t id r = σ.enter i t id r := by
  simp only [Store.enter, Store.without, Function.update_idem]

theorem store_enterPass (i : Input) (t : TrackId) (kind : PassKind) {id : LayerId} (here start d : Nat) {s : State}
    {r : Record} (hr : s.store.layer id = some r) :
    (enterPass i t kind id here start d s).store = s.store.enter i t id r := by
  unfold enterPass
  extract_lets tr first s1 s2 s3
  have hstack : (fun u => (s1.track u).stack) = update (fun u => (s.track u).stack) t (tr.stack ++ [id]) := by
    funext u
    rw [State.withTrack_track, update_apply]
    split <;> rfl
  have hredo : (fun u => (s1.track u).redo) = fun u => (s.track u).redo := by
    funext u
    rw [State.withTrack_track]
    split
    · next e => rw [e]
    · rfl
  have h1 : s1.store = { s.store with stack := update s.store.stack t (tr.stack ++ [id]) } := by
    simp only [State.store, hstack, hredo]
    rfl
  have h2 : s2.store = s1.store := by
    simp only [s2]
    split <;> rfl
  have hpass : (fun j => (s3.pass j).map fun p => (p.layer, p.track)) =
      update (fun j => (s2.pass j).map fun p => (p.layer, p.track)) i (some (id, t)) := by
    funext j
    rw [State.withPass_pass, update_apply]
    split <;> rfl
  have h3 : s3.store = { s2.store with pass := update s2.store.pass i (some (id, t)) } := by
    simp only [State.store, hpass]
    rfl
  have h4 : ({ s3 with pse.openings := s3.pse.openings + 1 } : State).store = s3.store := rfl
  refine h4.trans ?_
  rw [h3, h2, h1]
  simp only [Store.enter]
  rw [← hr, Function.update_eq_self]
  rfl

theorem Store.placed_enter {σ : Store} {i : Input} {t : TrackId} {id : LayerId} {r : Record}
    (hr : σ.layer id = some r) : (σ.enter i t id r).placed = σ.placed := by
  refine Store.placed_congr rfl fun k => ?_
  simp only [Store.pagesOf, Store.enter]
  rw [← hr, Function.update_eq_self]

/-- A record filled for a pass and given back (R78). -/
theorem Store.Legal.unfilled {σ : Store} {id : LayerId} {r : Record} (hr : σ.layer id = some r)
    (hp : r.pinned = false) (hl : (σ.without id).Legal) : (σ.drop id).Legal := by
  have f1 : ∀ t, (σ.stack t).filter (· ≠ id) = σ.stack t := fun t =>
    List.filter_eq_self.2 fun k hk => decide_eq_true fun e =>
      (hl.listed.absent (id := id) (Function.update_self _ _ _) t).1 (e ▸ hk)
  have f2 : ∀ t, (σ.redo t).filter (· ≠ id) = σ.redo t := fun t =>
    List.filter_eq_self.2 fun k hk => decide_eq_true fun e =>
      (hl.listed.absent (id := id) (Function.update_self _ _ _) t).2 (e ▸ hk)
  have hdrop : σ.drop id = { σ.without id with loose := σ.loose + r.pages } := by
    simp only [Store.drop, hr, f1, f2, hp, Function.update_eq_self]
    rfl
  rw [hdrop]
  exact hl.loosened _

/-- A pass started on a record that is filled and has its pages. -/
theorem keepsStore_enterPass {i : Input} {t : TrackId} {id : LayerId} {r : Record} {s : State} (kind : PassKind)
    (here start n : Nat) (hr : s.store.layer id = some r) (hst : r.state = .recording) (hrt : r.track = t)
    (hrp : r.pinned = false) :
    (enterPass i t kind id here start n (mapLayer id (fun l => { l with start := start, written := n }) s)).store.placed =
        s.store.placed ∧
      ((s.store.without id).Legal → s.store.pass i = none → (s.store.stack t).length < 12 →
        (enterPass i t kind id here start n
          (mapLayer id (fun l => { l with start := start, written := n }) s)).store.Legal) := by
  have hmap := store_mapLayer_same (id := id) (f := fun l => { l with start := start, written := n }) (fun _ => rfl) s
  have h := store_enterPass i t kind here start n (hmap ▸ hr)
  rw [hmap] at h
  rw [h]
  refine ⟨Store.placed_enter hr, fun hl hp ht => ?_⟩
  rw [← Store.enter_without]
  exact hl.enter (Function.update_self _ _ _) hp ht hst hrt hrp

/-- A pass start, refused or not (R78), where the checks of R77 have found the input free and room in the stack. -/
theorem keepsStore_startPass {i : Input} {t : TrackId} {s : State} (d : Nat) (hi : s.pass i = none)
    (ht : (s.track t).stack.length < 12) : keepsStore s (startPass i t d s).1 := by
  unfold startPass
  extract_lets kind length here
  split
  · exact (keepsStore_freeRedo t s).trans (.of_eq (store_settleTrack ..))
  · next id s1 h =>
    obtain ⟨-, hfree⟩ := findRecord_free h
    have hfind := claims_findRecord h
    have h1 : keepsStore s s1 := (keepsStore_freeRedo t s).trans (keepsStore_of_claims hfind fun k hk => by cases hk)
    have hpass1 : s1.store.pass i = none := by
      rw [hfind.frame.1, (freeRedo_room t s).1]
      exact congrArg (Option.map _) hi
    have hroom1 : s.store.Legal → (s1.store.stack t).length < 12 := fun hl =>
      Nat.lt_of_le_of_lt (hfind.stack_le t) (Nat.lt_of_le_of_lt ((freeRedo_room t s).2 hl t) ht)
    extract_lets serial s2
    obtain ⟨hwithout, hplaced, hrec⟩ := store_fill (s := advanceSerial s1) (id := id)
      { state := .recording, track := t, input := some i, length := length, start := 0, written := 0, map := [],
        level := 256, pinned := false, serial := serial, stamp := none } hfree rfl
    change s2.store.without id = s1.store at hwithout
    change s2.store.placed = s1.store.placed at hplaced
    change s2.store.layer id = _ at hrec
    have hpass2 : s2.store.pass = s1.store.pass := by rw [← hwithout]; rfl
    have hstack2 : s2.store.stack = s1.store.stack := by rw [← hwithout]; rfl
    clear_value s2
    have hclaims := claims_settlePages id here d (length.getD 240000) s2
    generalize settlePages id here d (length.getD 240000) s2 = q at hclaims
    obtain ⟨s3, e⟩ := q
    obtain ⟨m, hm⟩ := hclaims.record hrec (by simp [Layer.record])
    have hlegal : s.store.Legal → (s3.store.without id).Legal := fun hl =>
      hclaims.without hrec (by simp [Layer.record]) (hwithout ▸ h1.legal hl)
    have hplaced3 : s3.store.placed = s1.store.placed := hclaims.placed.trans hplaced
    cases e with
    | none =>
      refine .trans (u := dropLayer id s3) ⟨fun hp => ?_, fun hl => ?_⟩ (.of_eq (store_settleTrack ..))
      · rw [store_dropLayer, Store.placed_drop, hplaced3]
        exact h1.placed hp
      · rw [store_dropLayer]
        exact Store.Legal.unfilled hm rfl (hlegal hl)
    | some e =>
      have hpass3 : s3.store.pass i = none := by
        rw [show s3.store.pass = s2.store.pass from hclaims.frame.1, hpass2, hpass1]
      have hroom3 : s.store.Legal → (s3.store.stack t).length < 12 := fun hl =>
        Nat.lt_of_le_of_lt (hclaims.stack_le t) (hstack2 ▸ hroom1 hl)
      dsimp only
      generalize (if kind = .fixed then (here + length.getD 240000 - e) % length.getD 240000 else 0) = start
      obtain ⟨hp, hl⟩ := keepsStore_enterPass (i := i) (t := t) kind here start e hm rfl rfl rfl
      refine .trans ?_ (keepsStore_emit _ _)
      exact ⟨fun h => (hp.trans hplaced3).trans (h1.placed h), fun h => hl (hlegal h) hpass3 (hroom3 h)⟩

theorem keepsStore_execOpen (i : Input) (t : TrackId) (d : Nat) (s : State) : keepsStore s (execOpen i t d s).1 := by
  unfold execOpen
  split
  · exact .refl s
  · next hc =>
    split
    · exact .refl s
    · have hc' := hc
      unfold State.openCheck at hc'
      split_ifs at hc' with h1 h2 h3 h4
      exact keepsStore_startPass d (by simpa using h2) (by omega)

/-! ## Writing -/

theorem keepsStore_backfillCopy (i : Input) (s : State) : keepsStore s (backfillCopy i s) := by
  unfold backfillCopy
  split
  · exact .refl s
  · extract_lets n c
    exact (keepsStore.of_eq (store_foldl (fun s j => store_storeBlock _ _ _ s) _ s)).trans
      (keepsStore_mapPass _ fun _ => ⟨rfl, rfl⟩)

theorem keepsStore_liveWrite (i : Input) (b : Block) (s : State) : keepsStore s (liveWrite i b s) := by
  unfold liveWrite
  split
  · exact .refl s
  · next p hp =>
    refine keepsStore_ite ?_ (.refl s)
    have h := keepsStore_of_pass_claims hp (claims_claimSlot p.layer (p.writePos / 256) s)
    split
    · next s1 e =>
      rw [e] at h
      exact h.trans (keepsStore_cutPass ..)
    · next s1 e =>
      rw [e] at h
      extract_lets len n w
      refine h.trans (.trans (.of_eq ?_) (keepsStore_mapPass _ fun _ => ⟨rfl, rfl⟩))
      exact (store_mapLayer_same (f := fun l => { l with written := n }) (fun _ => rfl) _).trans (store_storeBlock ..)

theorem keepsStore_endCutBackfill (i : Input) (s : State) : keepsStore s (endCutBackfill i s) := by
  unfold endCutBackfill
  split
  · split
    · exact keepsStore_ite (keepsStore_finishCut ..) (.refl s)
    · exact .refl s
  · exact .refl s

theorem keepsStore_finishCutBackfill (i : Input) (s : State) : keepsStore s (finishCutBackfill i s) :=
  keepsStore_ite ((keepsStore_backfillCopy i s).trans (keepsStore_endCutBackfill i _)) (.refl s)

/-! ## Closes -/

theorem keepsStore_completePass (late : Bool) (spill : Block) (i : Input) (s : State) :
    keepsStore s (completePass late spill i s) := by
  unfold completePass
  split
  · exact .refl s
  · next p hp =>
    extract_lets s1 s2 l
    refine .trans (u := s2) (keepsStore_endLive hp ?_) (.of_eq (store_emitAt ..))
    simp only [s2, s1]
    rw [store_clearPass, store_mapLayer (g := Record.live) fun _ => rfl, store_storeBlock]
    rfl

theorem keepsStore_awaitSpill (i : Input) (e : Nat) (s : State) : keepsStore s (awaitSpill i e s) :=
  keepsStore_mapPass _ fun _ => ⟨rfl, rfl⟩

theorem keepsStore_closed (i : Input) (e : Nat) (s : State) :
    keepsStore s (mapPass i (fun p => { p with close := some e }) s) := keepsStore_mapPass _ fun _ => ⟨rfl, rfl⟩

theorem keepsStore_closeMeasure {i : Input} {p : Pass} {s : State} (hp : s.pass i = some p) :
    keepsStore s (closeMeasure i p s) := by
  unfold closeMeasure
  extract_lets m s1 len s2 spill
  have h2 : s2.store = s.store := (store_fixLength ..).trans (store_emitMarks _)
  have hk2 : keepsStore s s2 := .of_eq h2
  refine keepsStore_ite ?_ (keepsStore_ite (hk2.trans (keepsStore_awaitSpill ..)) (hk2.trans (keepsStore_closed ..)))
  have htrim := claims_trimTo p.layer len s2
  rw [h2] at htrim
  exact ((keepsStore_of_pass_claims hp htrim).trans (keepsStore_closed ..)).trans (keepsStore_completePass ..)

theorem keepsStore_closeAtBoundary (i : Input) (p : Pass) (k len : Nat) (s : State) :
    keepsStore s (closeAtBoundary i p k len s) :=
  (keepsStore.of_eq (store_fixLength ..)).trans (keepsStore_awaitSpill ..)

theorem keepsStore_closeOpening {i : Input} {p : Pass} {s : State} (hp : s.pass i = some p) (d : Nat) :
    keepsStore s (closeOpening i p d s) := by
  unfold closeOpening
  extract_lets len k spill
  refine keepsStore_ite (keepsStore_closed ..) (keepsStore_ite (keepsStore_closeAtBoundary ..) ?_)
  have htrim := claims_trimTo p.layer (k * len) (fixLength p k len s)
  rw [store_fixLength] at htrim
  exact ((keepsStore_of_pass_claims hp htrim).trans (keepsStore_closed ..)).trans (keepsStore_completePass ..)

theorem keepsStore_execClose (i : Input) (d : Nat) (s : State) : keepsStore s (execClose i d s).1 := by
  unfold execClose
  split
  · exact .refl s
  · next p hp =>
    split
    · exact .refl s
    · split
      · split
        · exact keepsStore_closeMeasure hp
        · exact .refl s
      · exact keepsStore_closeOpening hp d
      · exact keepsStore_cutPass ..

/-! ## The steps of the passes that come about by themselves -/

theorem keepsStore_reachEnd (i : Input) (s : State) : keepsStore s (reachEnd i s) :=
  keepsStore_ite (keepsStore_mapPass _ fun _ => ⟨rfl, rfl⟩) (.refl s)

theorem keepsStore_blendSpill (i : Input) (s : State) : keepsStore s (blendSpill i s) := by
  unfold blendSpill
  split
  · exact keepsStore_ite (keepsStore_completePass ..) (.refl s)
  · exact .refl s

theorem keepsStore_autoClose (s : State) : keepsStore s (autoClose s) := by
  refine keepsStore_foldl (fun s i => ?_) allInputs s
  split
  · next hp => exact keepsStore_ite (keepsStore_closeMeasure hp) (.refl s)
  · exact .refl s

theorem keepsStore_eighthBoundary (i : Input) (s : State) : keepsStore s (eighthBoundary i s) := by
  unfold eighthBoundary
  split
  · exact keepsStore_ite (keepsStore_closeAtBoundary ..) (.refl s)
  · exact .refl s

theorem keepsStore_carriedClose (i : Input) (s : State) : keepsStore s (carriedClose i s) := by
  unfold carriedClose
  split
  · exact keepsStore_ite (keepsStore_closeAtBoundary ..) (.refl s)
  · exact .refl s

theorem keepsStore_settleEnd (s : State) : keepsStore s (settleEnd s) :=
  keepsStore_foldl (fun s i => (keepsStore_reachEnd i s).trans (keepsStore_blendSpill i _)) allInputs s

theorem keepsStore_settlePasses (s : State) : keepsStore s (settlePasses s) :=
  keepsStore_foldl (fun s i => (keepsStore_eighthBoundary i s).trans (keepsStore_carriedClose i _)) allInputs s

end Sys2Proof.Machine
end

section
/-! PROOFS. The operations of the bounce engine keep the pages placed and the store in order. -/

namespace Sys2Proof.Machine

open Function (update update_apply)

/-! ## The reservation -/

theorem insertPage_perm (x : Page) : ∀ ps : List Page, (insertPage x ps).Perm (x :: ps)
  | [] => .refl _
  | y :: ys => by
    unfold insertPage
    split
    · exact .refl _
    · exact ((insertPage_perm x ys).cons y).trans (.swap x y ys)

theorem sortPages_perm : ∀ ps : List Page, (sortPages ps).Perm ps
  | [] => .refl _
  | x :: ps => (insertPage_perm x (sortPages ps)).trans ((sortPages_perm ps).cons x)

/-- The pages that move from the free list's head into the reservation. -/
theorem reserve_perm (free reserved : List Page) (n : Nat) :
    (free.drop n ++ sortPages (reserved ++ free.take n)).Perm (free ++ reserved) := by
  refine ((sortPages_perm _).append_left _).trans (List.perm_append_comm.trans ?_)
  rw [List.append_assoc, List.take_append_drop]
  exact List.perm_append_comm

/-! ## Starts -/

/-- What passes the start checks of R134 is fit to be bounced. -/
theorem State.bounceCheck_offers {s : State} {t : TrackId} {count : Nat} (hl : s.store.Legal)
    (hc : s.bounceCheck t count = none) (hn : 1 ≤ count) (dest : Option LayerId) :
    s.store.offers { track := t, sources := (s.track t).stack.take count, dest := dest } := by
  unfold State.bounceCheck at hc
  extract_lets tr bottom at hc
  split_ifs at hc with h1 h2
  simp only [Bool.or_eq_true, decide_eq_true_eq, Bool.not_eq_true', not_or, Bool.not_eq_false, Nat.not_lt,
    List.all_eq_true, List.any_eq_true, not_exists, not_and] at h1 h2
  obtain ⟨⟨-, hlen⟩, hlive⟩ := h1
  refine ⟨fun he => ?_, (hl.listed.stack_nodup t).sublist (List.take_sublist _ _), fun id hid => ?_⟩
  · change bottom = [] at he
    rw [he] at hlen
    exact absurd (hn.trans hlen) (by simp)
  · obtain ⟨r, hr, ht, -⟩ := (hl.listed.mem_stack t id).1 (List.mem_of_mem_take hid)
    obtain ⟨l, hs, rfl⟩ := State.store_layer_eq_some.1 hr
    have hst := hlive id hid
    have hp := h2 id hid
    simp only [hs, Option.any_some, decide_eq_true_eq] at hst hp
    exact ⟨_, hr, hst, ht, by simpa [Layer.record] using hp⟩

/-- Claims leave what is fit to be bounced so. -/
theorem Store.Claims.offers {σ τ : Store} (h : Claims none σ τ) {b : Holding} (ho : σ.offers b) : τ.offers b := by
  refine ⟨ho.1, ho.2.1, fun id hid => ?_⟩
  obtain ⟨r, hr, hst, ht, hp⟩ := ho.2.2 id hid
  obtain ⟨m, hm⟩ := h.record hr (by rw [hst]; decide)
  exact ⟨_, hm, hst, ht, hp⟩

/-- The store once the claim of a commit is met (R35, R60). -/
theorem bounceClaim_store {t : TrackId} {s u : State} {id : LayerId} (h : bounceClaim t s = .ok (id, u)) :
    ∃ (τ : Store) (r : Record) (g : Multiset Page), Store.Claims none s.store τ ∧ τ.layer id = none ∧
      r.state = .forming ∧ r.track = t ∧ r.pinned = false ∧ r.pages = 0 ∧ g = τ.loose ∧
      u.store = { τ with layer := update τ.layer id (some r), loose := g } := by
  unfold bounceClaim at h
  extract_lets len need s1 at h
  split_ifs at h
  split at h
  · cases h
  · next k hk =>
    cases h
    have hfree : s1.store.layer id = none := congrArg (Option.map Layer.record) (freeRecord_lowest hk).1
    refine ⟨s1.store, (formingLayer t len s1.lys.serials).record,
      ↑(s1.pgp.free.drop need ++ sortPages (s1.pgp.reserved ++ s1.pgp.free.take need)), claims_reclaimRun .., hfree, rfl,
      rfl, rfl, rfl, Multiset.coe_eq_coe.2 (reserve_perm ..), ?_⟩
    rw [store_lowMark]
    have hserial : (s1.withLayer id (some (formingLayer t len s1.lys.serials))).store =
        { s1.store with layer := update s1.store.layer id (some (formingLayer t len s1.lys.serials).record) } :=
      store_withLayer ..
    have hpages : ∀ x : State, ((advanceSerial x).withPgp
        { (advanceSerial x).pgp with
          free := (advanceSerial x).pgp.free.drop need,
          reserved := sortPages ((advanceSerial x).pgp.reserved ++ (advanceSerial x).pgp.free.take need) }).store =
        { x.store with loose := ↑(x.pgp.free.drop need ++ sortPages (x.pgp.reserved ++ x.pgp.free.take need)) } :=
      fun x => rfl
    rw [hpages, hserial]
    rfl

/-- A FREE record filled without pages leaves every page where it stands. -/
theorem Store.placed_fill {σ : Store} {id : LayerId} {r : Record} (hid : σ.layer id = none) (hr : r.pages = 0)
    (o : Option Holding) (i : Bool) :
    ({ σ with layer := update σ.layer id (some r), active := o, idle := i } : Store).placed = σ.placed := by
  refine Store.placed_congr rfl fun k => ?_
  simp only [Store.pagesOf, update_apply]
  split
  · next e =>
    subst e
    rw [hid]
    exact hr
  · rfl

/-- A bounce starts where the engine holds none (R134). -/
theorem startBounce_store {t : TrackId} {count : Nat} {mode : BounceMode} {lk : Link} {tag : Byte} {s u : State}
    (h : startBounce t count mode lk tag s = .ok u) (hi : s.bne.engine = .idle) :
    u.store.placed = s.store.placed ∧ (s.store.Legal → 1 ≤ count → u.store.Legal) := by
  unfold startBounce at h
  split at h
  · cases h
  · next hc =>
    extract_lets len sources claimed at h
    have hids : sources.map (·.layer) = (s.track t).stack.take count := by
      simp only [sources, List.map_map]
      exact List.map_id' _
    have hrest : s.store.Legal → s.store.active = none := fun hl => hl.bounced.rest (decide_eq_true hi)
    have hidle : decide (mode.engine = Engine.idle) = false := by cases mode <;> rfl
    have hafter : ∀ (dest : Option LayerId) (x : State), ((x.withBne
        { x.bne with
          active := some
            { track := t, count := count, mode := mode, station := lk, tag := tag, owed := true, sources := sources,
              dest := dest, total := ceilDiv len 32, done := 0, stroke := some (0, strokeCost mode count len 0),
              peak := 0, clips := 0, suspendPending := false },
          engine := mode.engine }).withTmc { x.tmc with credit := 0 }).store =
        { x.store with
          active := some { track := t, sources := (s.track t).stack.take count, dest := dest }, idle := false } := by
      intro dest x
      rw [← hidle, ← hids]
      rfl
    rcases hclaim : claimed with c | ⟨dest, s1⟩
    · rw [hclaim] at h
      cases h
    · rw [hclaim] at h
      cases h
      simp only [claimed] at hclaim
      cases mode with
      | scan =>
        cases hclaim
        have hs := hafter none s
        exact ⟨by rw [hs]; rfl, fun hl hn =>
          hs ▸ hl.scan (hrest hl) (State.bounceCheck_offers hl hc hn none) rfl⟩
      | commit =>
        dsimp only at hclaim
        split at hclaim
        · next id s2 e =>
          cases hclaim
          obtain ⟨τ, r, g, hτ, hid, hst, ht, hp, hpg, hg, hu⟩ := bounceClaim_store e
          have hs := hafter (some id) s1
          rw [hu] at hs
          subst hg
          refine ⟨?_, fun hl hn => ?_⟩
          · rw [hs]
            exact (Store.placed_fill hid hpg _ _).trans hτ.placed
          · rw [hs]
            have hlτ := hτ.legal hl fun k hk => by cases hk
            exact hlτ.form (hτ.frame.2.1.trans (hrest hl)) (hτ.offers (State.bounceCheck_offers hl hc hn _)) hid rfl hst
              ht hp
        · cases hclaim

/-! ## The waiting list -/

theorem keepsStore_waiting {s : State} {ws : List Waiting} (h : s.store.Legal → ∀ w ∈ ws, 2 ≤ w.count) :
    keepsStore s (s.withBne { s.bne with waiting := ws }) := by
  have hs : (s.withBne { s.bne with waiting := ws }).store = { s.store with waiting := ws.map (·.count) } := rfl
  refine .of_placed (by rw [hs]; rfl) fun hl => hs ▸ hl.wait fun n hn => ?_
  obtain ⟨w, hw, rfl⟩ := List.mem_map.1 hn
  exact h hl w hw

theorem State.waiting_two {s : State} (hl : s.store.Legal) {w : Waiting} (hw : w ∈ s.bne.waiting) : 2 ≤ w.count :=
  hl.bounced.waiting w.count (List.mem_map_of_mem hw)

/-- The front entry taken from the waiting list. -/
theorem keepsStore_takeWaiting {s : State} {w : Waiting} {rest : List Waiting} (h : s.bne.waiting = w :: rest) :
    keepsStore s (s.withBne { s.bne with waiting := rest }) :=
  keepsStore_waiting fun hl _ hx => State.waiting_two hl (h ▸ List.mem_cons_of_mem w hx)

theorem keepsStore_reply (lk : Link) (a b : Byte) (k : Bool) (c : ReplyCode) (p : Payload) (s : State) :
    keepsStore s (reply lk a b k c p s) := .of_eq (store_reply ..)

theorem reply_bne (lk : Link) (a b : Byte) (k : Bool) (c : ReplyCode) (p : Payload) (s : State) :
    (reply lk a b k c p s).bne = s.bne := (congrArg State.bne (reply_inner lk a b k c p s) :)

theorem keepsStore_advanceWaiting : ∀ (n : Nat) {s : State}, s.bne.engine = .idle → keepsStore s (advanceWaiting n s)
  | 0, s, _ => .refl s
  | n + 1, s, hi => by
    unfold advanceWaiting
    split
    · exact .refl s
    · next w rest hw =>
      have h1 := keepsStore_takeWaiting hw
      extract_lets s1
      split
      · next s2 e =>
        have two : s.store.Legal → 1 ≤ w.count := fun hl =>
          Nat.le_of_succ_le (State.waiting_two hl (hw ▸ List.mem_cons_self))
        obtain ⟨hplaced, hlegal⟩ := startBounce_store e hi
        exact ⟨fun hp => hplaced.trans (h1.placed hp), fun hl => hlegal (h1.legal hl) (two hl)⟩
      · refine h1.trans ((keepsStore_reply ..).trans (keepsStore_advanceWaiting n ?_))
        exact (congrArg Bne.engine (reply_bne ..)).trans hi

theorem keepsStore_advanceQueue (s : State) : keepsStore s (advanceQueue s) := by
  unfold advanceQueue
  split
  · next h =>
    simp only [State.advanceDue, Bool.and_eq_true, decide_eq_true_eq] at h
    exact keepsStore_advanceWaiting _ h.1.1
  · exact .refl s

theorem keepsStore_cancelWaiting (s : State) : keepsStore s (cancelWaiting s) :=
  (keepsStore_waiting fun _ w hw => by cases hw).trans (keepsStore_foldl (fun s w => keepsStore_reply ..) _ _)

/-! ## Strokes -/

theorem claims_destSlot (id : LayerId) (slot : Nat) (s : State) :
    Store.Claims (some id) s.store (destSlot id slot s).store := by
  unfold destSlot
  split
  · next l pg rest hl hr =>
    split
    · exact .refl
    · next hs =>
      have hs : slotPage l.map slot = none := by simpa using hs
      rw [store_withPages hl (g := { s.pgp with reserved := rest }) rfl]
      refine Store.Claims.refl.repage rfl (State.store_layer_of hl) ?_
      have hp : (↑((putSlot slot pg l.map).map (·.2)) : Multiset Page) = ↑(pg :: l.map.map (·.2)) :=
        Multiset.coe_eq_coe.2 (putSlot_perm hs)
      rw [hp]
      refine Multiset.coe_eq_coe.2 ?_
      rw [hr]
      exact List.perm_middle.trans (List.perm_middle.append_right _).symm
  · exact .refl

theorem claims_writeDest (id : LayerId) (pos : Nat) (b : Block) (s : State) :
    Store.Claims (some id) s.store (writeDest id pos b s).store := by
  unfold writeDest
  rw [store_mapLayer_same (f := fun l => { l with written := l.written + 1 }) (fun _ => rfl), store_storeBlock]
  exact claims_destSlot ..

theorem claims_writeStroke (b : Bounce) (k : Nat) (sums : List Block) (s : State) :
    Store.Claims b.dest s.store (writeStroke b k sums s).store := by
  unfold writeStroke
  split
  · exact .refl
  · next id e =>
    rw [e]
    exact claims_foldl (fun s (x : Block × Nat) => claims_writeDest id _ _ s) _ s

theorem State.store_active_some {s : State} {h : Holding} :
    s.store.active = some h ↔ ∃ b, s.bne.active = some b ∧ b.holding = h := Option.map_eq_some_iff

/-- Claims for the destination of the active bounce keep the store. -/
theorem keepsStore_of_bounce_claims {s u : State} {b : Bounce} (hb : s.bne.active = some b)
    (h : Store.Claims b.dest s.store u.store) : keepsStore s u := by
  refine keepsStore_of_claims h fun j hj hl => ?_
  obtain ⟨r, hr, hst, -⟩ := hl.bounced.dest b.holding j (congrArg (Option.map Bounce.holding) hb) hj
  exact ⟨r, hr, by rw [hst]; decide, by rw [hst]; decide⟩

/-! ## Ends and aborts -/

/-- The engine IDLE, without a bounce and without credit. -/
theorem store_idle (s : State) :
    ((s.withBne { s.bne with active := none, engine := .idle }).withTmc { s.tmc with credit := 0 }).store =
      s.store.rested := rfl

theorem store_commitStack (b : Bounce) (id : LayerId) (s : State) : (commitStack b id s).store =
    ((b.sources.map (·.layer)).foldl Store.drop s.store).raise b.track id := by
  unfold commitStack
  extract_lets s1 _ s2
  have h1 : s1.store = (b.sources.map (·.layer)).foldl Store.drop s.store := by
    simp only [s1]
    rw [← store_foldl_drop (f := fun s id => dropLayer id s) (fun s id => store_dropLayer id s), List.foldl_map]
  have h2 : s2.store = { s1.store with stack := update s1.store.stack b.track (id :: s1.store.stack b.track) } := by
    have hstack : (fun u => (s2.track u).stack) =
        update (fun u => (s1.track u).stack) b.track (id :: (s1.track b.track).stack) := by
      funext u
      rw [State.withTrack_track, update_apply]
      split <;> rfl
    have hredo : (fun u => (s2.track u).redo) = fun u => (s1.track u).redo := by
      funext u
      rw [State.withTrack_track]
      split
      · next e => rw [e]
      · rfl
    simp only [State.store, hstack, hredo]
    rfl
  rw [store_lowMark, store_mapLayer (g := Record.live) fun _ => rfl, h2, h1]
  rfl

theorem Store.placed_raise (σ : Store) (t : TrackId) (id : LayerId) : (σ.raise t id).placed = σ.placed := by
  rw [Store.raise, Store.placed_mapRecord (f := Record.live) fun _ => rfl]
  rfl

theorem keepsStore_endBounce {s : State} {b : Bounce} (hb : s.bne.active = some b) : keepsStore s (endBounce b s) := by
  unfold endBounce
  extract_lets s1 dest s2 s3
  have h3 : s3.store = s1.store := (store_ite (store_reply ..) rfl).trans (store_emit _ _)
  have hact : s.store.active = some b.holding := congrArg (Option.map Bounce.holding) hb
  have hend : ∀ x : State, x.store = s1.store →
      ((x.withBne { x.bne with active := none, engine := .idle }).withTmc { x.tmc with credit := 0 }).store =
        s1.store.rested := fun x hx => (store_idle x).trans (congrArg Store.rested hx)
  have hu := hend s3 h3
  refine .of_placed ?_ fun hl => ?_
  · refine (congrArg Store.placed hu).trans (show s1.store.placed = _ from ?_)
    simp only [s1]
    split
    · rw [store_commitStack, Store.placed_raise, Store.placed_drops]
    · rfl
  · rw [hu]
    simp only [s1]
    split
    · next id e =>
      rw [store_commitStack]
      exact hl.commit hact e
    · next e => exact hl.rest hact e

theorem store_withActive {s : State} {b c : Bounce} (hb : s.bne.active = some b) (hh : c.holding = b.holding)
    {e : Engine} (he : e ≠ .idle) :
    (s.withBne { s.bne with active := some c, engine := e }).store = { s.store with idle := false } := by
  have ha : s.store.active = some c.holding := by rw [hh]; exact congrArg (Option.map Bounce.holding) hb
  have hf : decide (e = .idle) = false := decide_eq_false he
  have h : (s.withBne { s.bne with active := some c, engine := e }).store =
      { s.store with active := some c.holding, idle := decide (e = .idle) } := rfl
  rw [h, hf, ← ha]

theorem keepsStore_busy {s : State} {b c : Bounce} (hb : s.bne.active = some b) (hh : c.holding = b.holding)
    {e : Engine} (he : e ≠ .idle) : keepsStore s (s.withBne { s.bne with active := some c, engine := e }) :=
  .of_placed (by rw [store_withActive hb hh he]; rfl) fun hl => store_withActive hb hh he ▸ hl.busy

/-- What the invariants do not read of the active bounce. -/
theorem keepsStore_active {s : State} {b c : Bounce} (hb : s.bne.active = some b) (hh : c.holding = b.holding) :
    keepsStore s (s.withBne { s.bne with active := some c }) := by
  have h : (s.withBne { s.bne with active := some c }).store = { s.store with active := some c.holding } := rfl
  have ha : s.store.active = some c.holding := by rw [hh]; exact congrArg (Option.map Bounce.holding) hb
  exact .of_eq (by rw [h, ← ha])

theorem keepsStore_afterStroke {s : State} {b c : Bounce} (hb : s.bne.active = some b) (hh : c.holding = b.holding)
    (len : Nat) : keepsStore s (afterStroke c len s) := by
  unfold afterStroke
  refine keepsStore_ite ((keepsStore_active hb hh).trans (keepsStore_endBounce rfl)) (keepsStore_ite ?_ ?_)
  · exact keepsStore_busy (e := .suspended) (c := { c with stroke := none, suspendPending := false }) hb hh (by decide)
  · exact keepsStore_active (c := { c with stroke := some (c.done, strokeCost c.mode c.count len c.done) }) hb hh

theorem keepsStore_strokeStep (s : State) : keepsStore s (strokeStep s) := by
  unfold strokeStep
  split
  · exact .refl s
  · next b hb =>
    split
    · exact .refl s
    · next k cost _ =>
      refine keepsStore_ite ?_ (.refl s)
      extract_lets len sums _ s1 _ s2 s3
      have hclaims : Store.Claims b.dest s2.store s3.store := claims_writeStroke b k sums s2
      clear_value s3
      obtain ⟨c, hc, hh⟩ := State.store_active_some.1
        (hclaims.frame.2.1.trans (congrArg (Option.map Bounce.holding) hb : s2.store.active = some b.holding))
      have h2 : keepsStore s s2 := .of_eq rfl
      have h3 : keepsStore s2 s3 := keepsStore_of_bounce_claims (b := b) hb hclaims
      refine h2.trans (h3.trans (keepsStore_afterStroke hc ?_ len))
      exact hh.symm

theorem keepsStore_strokes : ∀ (n : Nat) (s : State), keepsStore s (strokes n s)
  | 0, s => .refl s
  | n + 1, s => keepsStore_ite ((keepsStore_strokeStep s).trans (keepsStore_strokes n _)) (.refl s)

/-- The reservation given back (R62). -/
def giveReserved (s : State) : State :=
  (givePages s.pgp.reserved s).withPgp { (givePages s.pgp.reserved s).pgp with reserved := [] }

theorem store_giveReserved (s : State) : (giveReserved s).store = s.store := by
  have h : (giveReserved s).store = { s.store with loose := ↑(s.pgp.free ++ s.pgp.reserved ++ ([] : List Page)) } := rfl
  rw [h, List.append_nil]
  rfl

theorem returnBouncePages_eq (mark : Bool) (b : Bounce) (s : State) : returnBouncePages mark b s =
    b.dest.elim s fun id =>
      if mark then lowMark (giveReserved (dropLayer id s)) else giveReserved (dropLayer id s) := by
  unfold returnBouncePages
  cases b.dest <;> rfl

theorem store_returnBouncePages (mark : Bool) (b : Bounce) (s : State) :
    (returnBouncePages mark b s).store = b.dest.elim s.store s.store.drop := by
  rw [returnBouncePages_eq]
  cases b.dest with
  | none => rfl
  | some id =>
    have h := (store_giveReserved (dropLayer id s)).trans (store_dropLayer id s)
    cases mark with
    | false => exact h
    | true => exact (store_lowMark _).trans h

theorem store_abortBounce {mark : Bool} {cause : BounceAbort} {s : State} {b : Bounce} (hb : s.bne.active = some b) :
    (abortBounce mark cause s).store = (b.dest.elim s.store s.store.drop).rested := by
  unfold abortBounce
  simp only [hb]
  refine (store_idle _).trans (congrArg Store.rested ?_)
  rw [store_ite (store_reply ..) rfl, store_emit, store_returnBouncePages]

theorem abortBounce_of_none {mark : Bool} {cause : BounceAbort} {s : State} (hb : s.bne.active = none) :
    abortBounce mark cause s = s := by
  unfold abortBounce
  simp only [hb]

theorem keepsStore_abortBounce (mark : Bool) (cause : BounceAbort) (s : State) :
    keepsStore s (abortBounce mark cause s) := by
  cases hb : s.bne.active with
  | none => rw [abortBounce_of_none hb]; exact .refl s
  | some b =>
    have hact : s.store.active = some b.holding := congrArg (Option.map Bounce.holding) hb
    refine .of_placed ?_ fun hl => ?_
    · rw [store_abortBounce hb]
      change Store.placed (b.dest.elim s.store s.store.drop) = _
      cases b.dest with
      | none => rfl
      | some id => exact Store.placed_drop ..
    · rw [store_abortBounce hb]
      cases hd : b.dest with
      | none => exact hl.rest hact hd
      | some id => exact hl.abandon hact hd

theorem keepsStore_abortBounceOn (t : TrackId) (cause : BounceAbort) (s : State) :
    keepsStore s (abortBounceOn t cause s) := keepsStore_ite (keepsStore_abortBounce ..) (.refl s)

/-! ## The link of a bounce's station, and the hold -/

/-- The active bounce changed where the invariants do not read it. -/
theorem keepsStore_mapActive {f : Bounce → Bounce} (hf : ∀ b, (f b).holding = b.holding) (s : State) :
    keepsStore s (s.withBne { s.bne with active := s.bne.active.map f }) := by
  have h : (s.withBne { s.bne with active := s.bne.active.map f }).store =
      { s.store with active := (s.bne.active.map f).map Bounce.holding } := rfl
  have ha : (s.bne.active.map f).map Bounce.holding = s.store.active := by
    rw [Option.map_map]
    exact congrArg (fun g => s.bne.active.map g) (funext hf)
  exact .of_eq (by rw [h, ha])

theorem keepsStore_bounceDeparture (lk : Link) (s : State) : keepsStore s (bounceDeparture lk s) :=
  (keepsStore_waiting (ws := s.bne.waiting.filter fun w => w.station ≠ lk) fun hl w hw =>
    State.waiting_two hl (List.mem_of_mem_filter hw)).trans
      (keepsStore_mapActive (f := fun b => if b.station = lk then { b with owed := false } else b)
        (fun b => by split <;> rfl) _)

theorem keepsStore_pendSuspend (s : State) : keepsStore s (pendSuspend s) :=
  keepsStore_ite (keepsStore_mapActive (f := fun b => { b with suspendPending := true }) (fun _ => rfl) s) (.refl s)

theorem keepsStore_unsuspend (s : State) : keepsStore s (unsuspend s) := by
  unfold unsuspend
  refine keepsStore_ite ?_ (.refl s)
  split
  · exact .refl s
  · next b hb =>
    refine keepsStore_busy hb ?_ ?_
    · rfl
    · cases b.mode <;> decide

end Sys2Proof.Machine
end

section
/-! PROOFS. The operations on the stacks, the action queue and the hold machine keep the pages placed and the store in
order. -/

namespace Sys2Proof.Machine

open Function (update update_apply)

/-! ## What aborts leave -/

/-- `τ` comes of `σ` by records that go with their passes or their bounce: no LIVE and no PARKED layer changes. -/
structure Store.Within (σ τ : Store) : Prop where
  layer : ∀ id r, τ.layer id = some r → σ.layer id = some r
  kept : ∀ id r, σ.layer id = some r → r.state = .live ∨ r.state = .parked → τ.layer id = some r
  stack : ∀ t, (τ.stack t).Sublist (σ.stack t)
  redo : ∀ t, τ.redo t = σ.redo t
  pass : ∀ i x, τ.pass i = some x → σ.pass i = some x

theorem Store.Within.refl (σ : Store) : σ.Within σ :=
  ⟨fun _ _ h => h, fun _ _ h _ => h, fun _ => .refl _, fun _ => rfl, fun _ _ h => h⟩

theorem Store.Within.trans {σ τ υ : Store} (h : σ.Within τ) (k : τ.Within υ) : σ.Within υ :=
  ⟨fun id r hr => h.layer id r (k.layer id r hr), fun id r hr hst => k.kept id r (h.kept id r hr hst) hst,
    fun t => (k.stack t).trans (h.stack t), fun t => (k.redo t).trans (h.redo t),
    fun i x hx => h.pass i x (k.pass i x hx)⟩

/-- A RECORDING or a FORMING layer dropped. -/
theorem Store.Listed.drop_within {σ : Store} (h : σ.Listed) {id : LayerId} {r : Record} (hr : σ.layer id = some r)
    (hst : r.state = .recording ∨ r.state = .forming) : σ.Within (σ.drop id) := by
  refine ⟨fun k x hx => (Store.drop_layer_eq_some.1 hx).2, fun k x hx hxs => Store.drop_layer_eq_some.2 ⟨?_, hx⟩,
    fun t => ?_, fun t => ?_, fun i x hx => (σ.drop_frame id).1 ▸ hx⟩
  · rintro rfl
    rw [hr] at hx
    cases hx
    obtain e | e := hst <;> simp [e] at hxs
  · rw [(h.drop_lists id t).1]
    exact List.filter_sublist
  · rw [(h.drop_lists id t).2]
    refine List.filter_eq_self.2 fun k hk => decide_eq_true ?_
    rintro rfl
    obtain ⟨x, hx, -, hxs⟩ := (h.mem_redo t k).1 hk
    rw [hr] at hx
    cases hx
    obtain e | e := hst <;> simp [e] at hxs

theorem Store.clear_within (σ : Store) (i : Input) : σ.Within (σ.clear i) := by
  refine ⟨fun _ _ h => h, fun _ _ h _ => h, fun _ => .refl _, fun _ => rfl, fun j x hx => ?_⟩
  simp only [Store.clear, update_apply] at hx
  split at hx
  · cases hx
  · exact hx

theorem Store.rested_within (σ : Store) : σ.Within σ.rested :=
  ⟨fun _ _ h => h, fun _ _ h _ => h, fun _ => .refl _, fun _ => rfl, fun _ _ h => h⟩

theorem store_abortPass (mark event : Bool) {i : Input} {p : Pass} {s : State} (hp : s.pass i = some p) :
    (abortPass mark event i s).store = (s.store.clear i).drop p.layer := by
  unfold abortPass
  simp only [hp]
  have h := State.store_clear_drop (s := s) (i := i) p false
  cases event <;> cases mark <;> simp [store_emit, store_lowMark, h]

theorem abortPass_of_none (mark event : Bool) {i : Input} {s : State} (hp : s.pass i = none) :
    abortPass mark event i s = s := by
  unfold abortPass
  simp only [hp]

/-- An aborted pass leaves its input without one. -/
theorem abortPass_pass (mark event : Bool) (i : Input) (s : State) :
    (abortPass mark event i s).store.pass = update s.store.pass i none := by
  cases hp : s.pass i with
  | none =>
    have h : s.store.pass i = none := congrArg (Option.map _) hp
    rw [abortPass_of_none mark event hp, ← h, Function.update_eq_self]
  | some p => rw [store_abortPass mark event hp, (Store.drop_frame _ _).1]; rfl

theorem abortPass_within {s : State} (hl : s.store.Legal) (mark event : Bool) (i : Input) :
    s.store.Within (abortPass mark event i s).store := by
  cases hp : s.pass i with
  | none => rw [abortPass_of_none mark event hp]; exact .refl _
  | some p =>
    rw [store_abortPass mark event hp]
    obtain ⟨r, hr, hst, -⟩ := hl.held.recording i _ _ (State.store_pass_of hp)
    have hlisted : (s.store.clear i).Listed :=
      ⟨hl.listed.1, hl.listed.2, hl.listed.3, hl.listed.4, hl.listed.5, hl.listed.6⟩
    exact (s.store.clear_within i).trans (hlisted.drop_within hr (.inl hst))

/-- The inputs with a pass open on a track. -/
def Store.passesOn (σ : Store) (t : TrackId) : Finset Input := Finset.univ.filter fun i => (σ.pass i).any fun x => x.2 = t

theorem Store.mem_passesOn {σ : Store} {t : TrackId} {i : Input} :
    i ∈ σ.passesOn t ↔ ∃ id, σ.pass i = some (id, t) := by
  simp only [Store.passesOn, Finset.mem_filter, Finset.mem_univ, true_and, Option.any_eq_true, decide_eq_true_eq]
  exact ⟨fun ⟨x, hx, ht⟩ => ⟨x.1, ht ▸ hx⟩, fun ⟨id, hid⟩ => ⟨_, hid, rfl⟩⟩

theorem abortPass_passesOn {mark event : Bool} {i : Input} {p : Pass} {s : State} (hp : s.pass i = some p) :
    ((abortPass mark event i s).store.passesOn p.track).card < (s.store.passesOn p.track).card := by
  refine Finset.card_lt_card ⟨fun j hj => ?_, fun h => ?_⟩
  · obtain ⟨id, hid⟩ := Store.mem_passesOn.1 hj
    rw [abortPass_pass, update_apply] at hid
    split at hid
    · cases hid
    · exact Store.mem_passesOn.2 ⟨id, hid⟩
  · obtain ⟨id, hid⟩ := Store.mem_passesOn.1 (h (Store.mem_passesOn.2 ⟨_, State.store_pass_of hp⟩))
    rw [abortPass_pass, Function.update_self] at hid
    cases hid

/-- Every pass of a track is aborted, given fuel for them all, and no LIVE or PARKED layer changes. -/
theorem abortTrack_within {t : TrackId} : ∀ (n : Nat) {s : State}, s.store.Legal → (s.store.passesOn t).card ≤ n →
    s.store.Within (abortTrack t n s).store ∧ ∀ i id, (abortTrack t n s).store.pass i ≠ some (id, t)
  | 0, s, _, hn => by
    have hnone : s.store.passesOn t = ∅ := Finset.card_eq_zero.1 (Nat.le_zero.1 hn)
    refine ⟨.refl _, fun i id hi => Finset.notMem_empty i ?_⟩
    exact hnone ▸ Store.mem_passesOn.2 ⟨id, hi⟩
  | n + 1, s, hl, hn => by
    unfold abortTrack
    split
    · next h =>
      refine ⟨.refl _, fun i id hi => ?_⟩
      obtain ⟨p, hp, he⟩ := Option.map_eq_some_iff.1 hi
      exact (newestPass_none s t).1 h i p hp (congrArg Prod.snd he)
    · next i h =>
      obtain ⟨p, hp, rfl, -⟩ := (newestPass_some s t i).1 h
      have hlt := abortPass_passesOn (mark := true) (event := true) hp
      obtain ⟨hw, hnone⟩ := abortTrack_within (t := p.track) n ((keepsStore_abortPass true true i s).legal hl)
        (Nat.le_of_lt_succ (hlt.trans_le hn))
      exact ⟨(abortPass_within hl true true i).trans hw, hnone⟩

/-- An aborted bounce leaves the engine without one and no LIVE or PARKED layer changed. -/
theorem abortBounce_within {s : State} (hl : s.store.Legal) (mark : Bool) (cause : BounceAbort) :
    s.store.Within (abortBounce mark cause s).store ∧ (abortBounce mark cause s).store.active = none ∧
      (abortBounce mark cause s).store.pass = s.store.pass := by
  cases hb : s.bne.active with
  | none =>
    rw [abortBounce_of_none hb]
    exact ⟨.refl _, congrArg (Option.map Bounce.holding) hb, rfl⟩
  | some b =>
    have hact : s.store.active = some b.holding := congrArg (Option.map Bounce.holding) hb
    rw [store_abortBounce hb]
    cases hd : b.dest with
    | none => exact ⟨Store.rested_within _, rfl, rfl⟩
    | some id =>
      obtain ⟨r, hr, hst, -⟩ := hl.bounced.dest b.holding id hact hd
      exact ⟨(hl.listed.drop_within hr (.inr hst)).trans (Store.rested_within _), rfl, (s.store.drop_frame id).1⟩

/-- A track without a pass and without the active bounce. -/
structure Store.Quiet (σ : Store) (t : TrackId) : Prop where
  pass : ∀ i id, σ.pass i ≠ some (id, t)
  bounce : ∀ b, σ.active = some b → b.track ≠ t

/-- What TRACK_CLEAR and TRACK_ERASE begin with (R41, R42). -/
theorem abortOn_within {s : State} (hl : s.store.Legal) (t : TrackId) (cause : BounceAbort) :
    s.store.Within (abortBounceOn t cause (abortTrack t 4 s)).store ∧
      (abortBounceOn t cause (abortTrack t 4 s)).store.Quiet t := by
  obtain ⟨hw, hp⟩ := abortTrack_within (t := t) 4 hl (Finset.card_le_univ _)
  have hl1 := (keepsStore_abortTrack t 4 s).legal hl
  unfold abortBounceOn
  split
  · obtain ⟨hw2, hact, hpass⟩ := abortBounce_within hl1 true cause
    exact ⟨hw.trans hw2, fun i id => hpass ▸ hp i id, fun b hb => by rw [hact] at hb; cases hb⟩
  · next h =>
    refine ⟨hw, hp, fun c hc hct => h ?_⟩
    obtain ⟨b, hb, rfl⟩ := State.store_active_some.1 hc
    rw [hb]
    exact decide_eq_true hct

/-- On a quiet track every layer of the stack is LIVE and held by nothing. -/
theorem Store.Legal.quiet_stack {σ : Store} (h : σ.Legal) {t : TrackId} (hq : σ.Quiet t) {id : LayerId}
    (hid : id ∈ σ.stack t) : ∃ r, σ.layer id = some r ∧ r.track = t ∧ r.state = .live ∧ σ.unheld id ∧
      ∀ i u, σ.pass i ≠ some (id, u) := by
  obtain ⟨r, hr, ht, hst⟩ := h.stack_live hq.pass hid
  exact ⟨r, hr, ht, hst, h.bounced.unheld_track hr hst (ht ▸ hq.bounce), h.held.no_pass hr (by rw [hst]; decide)⟩

/-! ## Parks -/

/-- A layer that may be parked on track `t`. -/
def Store.parkable (σ : Store) (t : TrackId) (id : LayerId) : Prop :=
  (∃ r, σ.layer id = some r ∧ r.state = .live ∧ r.track = t) ∧ σ.unheld id

theorem Store.renumber_parks (σ : Store) : σ.renumber.parks < 4294967295 := by
  have h : σ.renumber.parks ≤ 48 := List.length_filter_le _ _
  omega

theorem Store.renumber_parkable {σ : Store} {t : TrackId} {id : LayerId} (h : σ.parkable t id) :
    σ.renumber.parkable t id := by
  obtain ⟨⟨r, hr, hst, ht⟩, hu⟩ := h
  obtain ⟨h1, h2, -⟩ := σ.restamp_fields r
  exact ⟨⟨_, Store.renumber_layer.2 ⟨r, hr, rfl⟩, h1.trans hst, h2.trans ht⟩, hu⟩

/-- A park in order, with what it leaves of the other layers. -/
theorem Store.Legal.parked {σ : Store} (h : σ.Legal) {t : TrackId} {id : LayerId} (hid : σ.parkable t id)
    (hroom : (σ.redo t).length < 12) (hparks : σ.parks < 4294967295) :
    (σ.park id).Legal ∧ ((σ.park id).redo t).length = (σ.redo t).length + 1 ∧
      ∀ k, k ≠ id → σ.parkable t k → (σ.park id).parkable t k := by
  obtain ⟨⟨r, hr, hst, rfl⟩, hu⟩ := hid
  refine ⟨h.park hr hst hu hroom hparks, ?_, ?_⟩
  · simp only [Store.park, hr, Function.update_self, List.length_append, List.length_singleton]
  · rintro k hk ⟨⟨x, hx, hxs, hxt⟩, hku⟩
    simp only [Store.park, hr]
    exact ⟨⟨x, (Function.update_of_ne hk _ _).trans hx, hxs, hxt⟩, hku⟩

theorem parkLayer_parked {s : State} (hl : s.store.Legal) {t : TrackId} {id : LayerId} (hid : s.store.parkable t id)
    (hroom : (s.store.redo t).length < 12) :
    (parkLayer id s).store.Legal ∧ ((parkLayer id s).store.redo t).length = (s.store.redo t).length + 1 ∧
      ∀ k, k ≠ id → s.store.parkable t k → (parkLayer id s).store.parkable t k := by
  rw [store_parkLayer]
  split
  · obtain ⟨h1, h2, h3⟩ := hl.renumber.parked (Store.renumber_parkable hid) hroom s.store.renumber_parks
    exact ⟨h1, h2, fun k hk hp => h3 k hk (Store.renumber_parkable hp)⟩
  · next hp =>
    exact hl.parked hid hroom (Nat.lt_of_le_of_ne hl.stamped.parks_le hp)

theorem placed_parkLayer (id : LayerId) (s : State) : (parkLayer id s).store.placed = s.store.placed := by
  rw [store_parkLayer, Store.placed_park]
  split
  · exact Store.placed_renumber _
  · rfl

theorem parkLayers_legal {t : TrackId} : ∀ {ids : List LayerId} {s : State}, s.store.Legal → ids.Nodup →
    (∀ id ∈ ids, s.store.parkable t id) → (s.store.redo t).length + ids.length ≤ 12 →
    (ids.foldl (fun s id => parkLayer id s) s).store.Legal
  | [], _, hl, _, _, _ => hl
  | id :: ids, s, hl, hnd, hp, hroom => by
    rw [List.length_cons] at hroom
    obtain ⟨hni, hnd⟩ := List.nodup_cons.1 hnd
    obtain ⟨h1, h2, h3⟩ := parkLayer_parked hl (hp id List.mem_cons_self) (by omega)
    exact parkLayers_legal (ids := ids) h1 hnd
      (fun k hk => h3 k (fun e => hni (e ▸ hk)) (hp k (List.mem_cons_of_mem _ hk))) (by rw [h2]; omega)

theorem placed_parkLayers : ∀ (ids : List LayerId) (s : State),
    (ids.foldl (fun s id => parkLayer id s) s).store.placed = s.store.placed
  | [], _ => rfl
  | id :: ids, s => (placed_parkLayers ids _).trans (placed_parkLayer id s)

/-- The layers of a quiet track's stack parked, top first, where the redo list has room. -/
theorem parkTopFirst_legal {s : State} {t : TrackId} (hl : s.store.Legal) (hq : s.store.Quiet t)
    (hroom : (s.store.redo t).length + (s.store.stack t).length ≤ 12) :
    (parkTopFirst (s.track t).stack s).store.Legal := by
  refine parkLayers_legal hl (List.nodup_reverse.2 (hl.listed.stack_nodup t)) (fun id hid => ?_)
    (by rw [List.length_reverse]; exact hroom)
  obtain ⟨r, hr, ht, hst, hu, -⟩ := hl.quiet_stack hq (List.mem_reverse.1 hid)
  exact ⟨⟨r, hr, hst, ht⟩, hu⟩

/-! ## Undo and redo -/

theorem store_makeRedoRoom (t : TrackId) (s : State) : (makeRedoRoom t s).store =
    (if 12 ≤ (s.store.redo t).length then (s.store.redo t).take 1 else []).foldl Store.drop s.store := by
  unfold makeRedoRoom
  have h : s.store.redo t = (s.track t).redo := rfl
  rw [h]
  split
  · exact store_freeLayers _ _
  · rfl

/-- A full redo list has room once its head is freed. -/
theorem makeRedoRoom_legal {s : State} (hl : s.store.Legal) (t : TrackId) : (makeRedoRoom t s).store.Legal ∧
    ((makeRedoRoom t s).store.redo t).length < 12 ∧ (makeRedoRoom t s).store.pass = s.store.pass ∧
      ∀ id r, s.store.layer id = some r → r.state = .live → (makeRedoRoom t s).store.layer id = some r := by
  rw [store_makeRedoRoom]
  set gone := if 12 ≤ (s.store.redo t).length then (s.store.redo t).take 1 else [] with hgone
  have hsub : ∀ id ∈ gone, id ∈ s.store.redo t := by
    intro id hid
    rw [hgone] at hid
    split at hid
    · exact List.mem_of_mem_take hid
    · cases hid
  refine ⟨hl.drops (fun id hid => (hl.redo_unheld (hsub id hid)).1) fun id hid => (hl.redo_unheld (hsub id hid)).2, ?_,
    (Store.drops_frame gone _).1, fun id r hr hst => Store.drops_layer_eq_some.2 ⟨fun hid => ?_, hr⟩⟩
  · rw [(hl.listed.drops_lists (ids := gone)).2]
    by_cases hfull : 12 ≤ (s.store.redo t).length
    · obtain ⟨x, xs, hx⟩ := List.exists_cons_of_ne_nil (l := s.store.redo t) (by rintro e; simp [e] at hfull)
      have hmem : x ∈ gone := by
        rw [hgone, if_pos hfull, hx]
        exact List.mem_cons_self
      refine Nat.lt_of_lt_of_le ?_ (hl.listed.redo_le t)
      exact List.length_filter_lt_length_iff_exists.2 ⟨x, hx ▸ List.mem_cons_self, by simp [hmem]⟩
    · exact Nat.lt_of_le_of_lt (List.length_filter_le _ _) (Nat.lt_of_not_le hfull)
  · obtain ⟨x, hx, -, hxs⟩ := (hl.listed.mem_redo t id).1 (hsub id hid)
    rw [hr] at hx
    cases hx
    rw [hst] at hxs
    cases hxs

theorem State.isSource_store {s : State} {id : LayerId} :
    s.isSource id = true ↔ ∃ b, s.store.active = some b ∧ id ∈ b.sources := by
  unfold State.isSource
  simp only [Option.any_eq_true, List.any_eq_true, decide_eq_true_eq]
  constructor
  · rintro ⟨b, hb, x, hx, rfl⟩
    exact ⟨b.holding, congrArg (Option.map Bounce.holding) hb, List.mem_map_of_mem hx⟩
  · rintro ⟨c, hc, hid⟩
    obtain ⟨b, hb, rfl⟩ := State.store_active_some.1 hc
    obtain ⟨x, hx, rfl⟩ := List.mem_map.1 hid
    exact ⟨b, hb, x, hx, rfl⟩

theorem keepsStore_execUndo (t : TrackId) (s : State) : keepsStore s (execUndo t s).1 := by
  unfold execUndo
  split
  · exact keepsStore_abortPass ..
  · next hn =>
    split
    · exact .refl s
    · next top htop =>
      extract_lets redo s1 s2
      split
      · exact .refl s
      · have hs1 : keepsStore s s1 := ⟨fun hp => by
          rw [store_makeRedoRoom, Store.placed_drops]; exact hp, fun hl => (makeRedoRoom_legal hl t).1⟩
        have hs2 : keepsStore s s2 := hs1.trans (keepsStore_ite (keepsStore_abortBounce ..) (.refl s1))
        refine ⟨fun hp => (placed_parkLayer top s2).trans (hs2.placed hp), fun hl => ?_⟩
        have hpass : ∀ i id, s.store.pass i ≠ some (id, t) := fun i id hi => by
          obtain ⟨p, hp, he⟩ := Option.map_eq_some_iff.1 hi
          exact (newestPass_none s t).1 hn i p hp (congrArg Prod.snd he)
        obtain ⟨r, hr, ht, hst⟩ := hl.stack_live hpass (List.mem_of_getLast? htop)
        obtain ⟨hl1, hroom, -, hkept⟩ := makeRedoRoom_legal hl t
        have hr1 : s1.store.layer top = some r := hkept top r hr hst
        have hafter : s2.store.layer top = some r ∧ s2.store.redo t = s1.store.redo t ∧ s2.store.unheld top := by
          simp only [s2]
          split
          · obtain ⟨hw, hact, -⟩ := abortBounce_within hl1 true .undo
            exact ⟨hw.kept top r hr1 (.inl hst), hw.redo t, fun b hb => by rw [hact] at hb; cases hb⟩
          · next hsrc =>
            refine ⟨hr1, rfl, fun b hb => ⟨fun hid => hsrc (State.isSource_store.2 ⟨b, hb, hid⟩), fun hd => ?_⟩⟩
            obtain ⟨x, hx, hxs, -⟩ := hl1.bounced.dest b top hb hd
            rw [hr1] at hx
            cases hx
            rw [hst] at hxs
            cases hxs
        obtain ⟨hr2, hredo, hu⟩ := hafter
        exact (parkLayer_parked (t := t) (hs2.legal hl) ⟨⟨r, hr2, hst, ht⟩, hu⟩ (hredo ▸ hroom)).1

/-- A track's record written with other lists. -/
theorem store_withLists (s : State) (t : TrackId) (x : Track) : (s.withTrack t x).store =
    { s.store with stack := update s.store.stack t x.stack, redo := update s.store.redo t x.redo } := by
  have hstack : (fun u => ((s.withTrack t x).track u).stack) = update (fun u => (s.track u).stack) t x.stack := by
    funext u
    rw [State.withTrack_track, update_apply]
    split <;> rfl
  have hredo : (fun u => ((s.withTrack t x).track u).redo) = update (fun u => (s.track u).redo) t x.redo := by
    funext u
    rw [State.withTrack_track, update_apply]
    split <;> rfl
  simp only [State.store, hstack, hredo]
  rfl

theorem store_execRedo {t : TrackId} {id : LayerId} {s : State} (hid : (s.track t).redo.getLast? = some id)
    (hroom : (s.track t).stack.length < 12) :
    (execRedo t s).1.store = s.store.restore t (s.track t).redo.dropLast id := by
  unfold execRedo
  simp only [hid, if_neg (Nat.not_le.2 hroom)]
  rw [store_mapLayer (g := fun r => { r with state := .live, stamp := none }) fun _ => rfl, store_withLists]
  rfl

theorem Store.placed_restore (σ : Store) (t : TrackId) (rest : List LayerId) (id : LayerId) :
    (σ.restore t rest id).placed = σ.placed :=
  Store.placed_mapRecord (σ := σ) (f := fun r => { r with state := .live, stamp := none }) fun _ => rfl

theorem keepsStore_execRedo (t : TrackId) (s : State) : keepsStore s (execRedo t s).1 := by
  cases hid : (s.track t).redo.getLast? with
  | none =>
    unfold execRedo
    simp only [hid]
    exact .refl s
  | some id =>
    by_cases hroom : (s.track t).stack.length < 12
    · have hlast : s.store.redo t = (s.track t).redo.dropLast ++ [id] :=
        (List.dropLast_append_getLast? id hid).symm
      have hs := store_execRedo hid hroom
      exact .of_placed (by rw [hs, Store.placed_restore]) fun hl => hs ▸ hl.restore hlast hroom
    · unfold execRedo
      simp only [hid, if_pos (Nat.le_of_not_lt hroom)]
      exact .refl s

end Sys2Proof.Machine
end

section
/-! PROOFS. TRACK_CLEAR, TRACK_ERASE and the end of the loop set, the action queue and the hold machine keep the pages
placed and the store in order. -/

namespace Sys2Proof.Machine

open Function (update update_apply)

/-! ## Clear and erase (R41, R42) -/

theorem State.havingPin_store (s : State) (pin : Bool) (ids : List LayerId) :
    s.havingPin pin ids = ids.filter fun id => (s.store.layer id).any fun r => r.pinned = pin := by
  simp only [State.havingPin, State.store, Option.any_map]
  rfl

theorem State.liveOf_store (s : State) (ids : List LayerId) :
    s.liveOf ids = ids.filter fun id => (s.store.layer id).any fun r => r.state = .live := by
  simp only [State.liveOf, State.store, Option.any_map]
  rfl

/-- What is left of a list once some of its members are gone. -/
theorem length_filter_gone {xs gone : List LayerId} (hx : xs.Nodup) (hg : gone.Nodup) (hsub : ∀ k ∈ gone, k ∈ xs) :
    (xs.filter (· ∉ gone)).length + gone.length = xs.length := by
  have hperm : (xs.filter (· ∈ gone)).Perm gone :=
    (List.perm_ext_iff_of_nodup (hx.filter _) hg).2 fun k => by
      simp only [List.mem_filter, decide_eq_true_eq]
      exact ⟨fun h => h.2, fun h => ⟨hsub k h, h⟩⟩
  have hsplit := List.length_eq_length_filter_add (l := xs) fun k => decide (k ∈ gone)
  rw [← hperm.length_eq]
  simp only [decide_not] at *
  omega

/-- Every layer of a redo list is pinned or not. -/
theorem redo_pins {s : State} (hl : s.store.Legal) (t : TrackId) :
    (s.havingPin true (s.track t).redo).length + (s.havingPin false (s.track t).redo).length =
      (s.track t).redo.length := by
  rw [State.havingPin_store, State.havingPin_store,
    List.length_eq_length_filter_add (l := (s.track t).redo) fun id => (s.store.layer id).any fun r => r.pinned = true]
  congr 2
  refine List.filter_congr fun id hid => ?_
  obtain ⟨r, hr, -⟩ := (hl.listed.mem_redo t id).1 hid
  rw [hr]
  cases hp : r.pinned <;> simp [hp]

/-- Aborts change no pin of a redo list. -/
theorem Store.Within.redo_pins {s u : State} (hl : s.store.Legal) (h : s.store.Within u.store) (t : TrackId)
    (pin : Bool) : u.havingPin pin (u.track t).redo = s.havingPin pin (s.track t).redo := by
  have hredo : (u.track t).redo = (s.track t).redo := h.redo t
  rw [State.havingPin_store, State.havingPin_store, hredo]
  refine List.filter_congr fun id hid => ?_
  obtain ⟨r, hr, -, hst⟩ := (hl.listed.mem_redo t id).1 hid
  rw [hr, h.kept id r hr (.inr hst)]

/-- Aborts raise the number of pinned layers of no stack. -/
theorem Store.Within.stack_pins {s u : State} (hlu : u.store.Legal) (h : s.store.Within u.store) (t : TrackId) :
    (u.havingPin true (u.track t).stack).length ≤ (s.havingPin true (s.track t).stack).length := by
  rw [State.havingPin_store, State.havingPin_store]
  have hsame : (u.track t).stack.filter (fun id => (u.store.layer id).any fun r => r.pinned = true) =
      (u.track t).stack.filter fun id => (s.store.layer id).any fun r => r.pinned = true :=
    List.filter_congr fun id hid => by
      obtain ⟨r, hr, -⟩ := (hlu.listed.mem_stack t id).1 hid
      rw [hr, h.layer id r hr]
  rw [hsame]
  exact ((h.stack t).filter _).length_le

/-- Aborts leave no more layers of a track than were LIVE, where they leave it quiet. -/
theorem Store.Within.stack_live {s u : State} (hlu : u.store.Legal) (h : s.store.Within u.store) {t : TrackId}
    (hq : u.store.Quiet t) : (u.track t).stack.length ≤ (s.liveOf (s.track t).stack).length := by
  rw [State.liveOf_store]
  have hself : (u.track t).stack.filter (fun id => (s.store.layer id).any fun r => r.state = .live) = (u.track t).stack :=
    List.filter_eq_self.2 fun id hid => by
      obtain ⟨r, hr, -, hst, -⟩ := hlu.quiet_stack hq hid
      rw [h.layer id r hr]
      exact decide_eq_true hst
  rw [← hself]
  exact ((h.stack t).filter _).length_le

/-- Layers of a quiet track's lists freed: the track stays quiet, and the rest of its lists stands. -/
theorem freeLayers_quiet {s : State} {t : TrackId} {gone : List LayerId} (hl : s.store.Legal) (hq : s.store.Quiet t)
    (hgone : ∀ id ∈ gone, id ∈ (s.track t).stack ∨ id ∈ (s.track t).redo) :
    (freeLayers gone s).store.Legal ∧ (freeLayers gone s).store.Quiet t ∧
      (freeLayers gone s).store.stack t = (s.track t).stack.filter (· ∉ gone) ∧
      (freeLayers gone s).store.redo t = (s.track t).redo.filter (· ∉ gone) := by
  have hfree : ∀ id ∈ gone, (∀ i u, s.store.pass i ≠ some (id, u)) ∧ s.store.unheld id := by
    intro id hid
    obtain h | h := hgone id hid
    · obtain ⟨r, -, -, -, hu, hp⟩ := hl.quiet_stack hq h
      exact ⟨hp, hu⟩
    · exact hl.redo_unheld h
  obtain ⟨hpass, hact, -⟩ := Store.drops_frame gone s.store
  obtain ⟨hstack, hredo⟩ := hl.listed.drops_lists (ids := gone) (t := t)
  rw [store_freeLayers]
  exact ⟨hl.drops (fun id hid => (hfree id hid).1) fun id hid => (hfree id hid).2,
    ⟨fun i id => hpass ▸ hq.pass i id, fun b hb => hq.bounce b (hact ▸ hb)⟩, hstack, hredo⟩

theorem keepsStore_abortOn (t : TrackId) (cause : BounceAbort) (s : State) :
    keepsStore s (abortBounceOn t cause (abortTrack t 4 s)) :=
  (keepsStore_abortTrack t 4 s).trans (keepsStore_abortBounceOn ..)

/-- What TRACK_CLEAR and TRACK_ERASE free and then park keeps the store, where the redo list has room for the parked. -/
theorem keepsStore_freeAndPark {s u : State} {t : TrackId} {gone : List LayerId} (h : keepsStore s u)
    (hq : s.store.Legal → u.store.Quiet t)
    (hgone : ∀ id ∈ gone, id ∈ (u.track t).stack ∨ id ∈ (u.track t).redo)
    (hroom : s.store.Legal → ((u.track t).redo.filter (· ∉ gone)).length +
      ((u.track t).stack.filter (· ∉ gone)).length ≤ 12) :
    keepsStore s (parkTopFirst ((freeLayers gone u).track t).stack (freeLayers gone u)) := by
  refine ⟨fun hp => (placed_parkLayers _ _).trans ?_, fun hl => ?_⟩
  · rw [store_freeLayers, Store.placed_drops]
    exact h.placed hp
  · obtain ⟨h1, h2, h3, h4⟩ := freeLayers_quiet (h.legal hl) (hq hl) hgone
    refine parkTopFirst_legal h1 h2 ?_
    rw [h3, h4]
    exact hroom hl

theorem keepsStore_execClear (t : TrackId) (s : State) : keepsStore s (execClear t s).1 := by
  unfold execClear
  extract_lets live pins s1 redo s2
  split
  · exact .refl s
  · split
    · exact .refl s
    · next hfull =>
      have hmem : ∀ id ∈ (s1.havingPin false redo).take (redo.length - (12 - live)), id ∈ redo := fun id hid =>
        (List.mem_filter.1 (List.mem_of_mem_take hid)).1
      refine keepsStore_freeAndPark (keepsStore_abortOn t .clear s) (fun hl => (abortOn_within hl t .clear).2)
        (fun id hid => .inr (hmem id hid)) fun hl => ?_
      obtain ⟨hw, hq⟩ := abortOn_within hl t .clear
      have hl1 : s1.store.Legal := (keepsStore_abortOn t .clear s).legal hl
      have hlive : (s1.track t).stack.length ≤ live := hw.stack_live hl1 hq
      have hpins : (s1.havingPin true redo).length = pins := congrArg List.length (hw.redo_pins hl t true)
      have hsplit : (s1.havingPin true redo).length + (s1.havingPin false redo).length = redo.length := redo_pins hl1 t
      have hnd : redo.Nodup := hl1.listed.redo_nodup t
      have hunpinned : (s1.havingPin false redo).Nodup := hnd.filter _
      have hleft := length_filter_gone hnd (hunpinned.sublist (List.take_sublist _ _)) hmem
      have hgone : ((s1.havingPin false redo).take (redo.length - (12 - live))).length =
          min (redo.length - (12 - live)) (s1.havingPin false redo).length := List.length_take
      have hstack : ((s1.track t).stack.filter
          (· ∉ (s1.havingPin false redo).take (redo.length - (12 - live)))).length ≤ (s1.track t).stack.length :=
        List.length_filter_le _ _
      change (redo.filter _).length + _ ≤ 12
      rw [hgone] at hleft
      omega

/-- Of a list whose unpinned layers are gone no more than the pinned are left. -/
theorem length_filter_unpinned {s : State} {xs gone : List LayerId}
    (hgone : ∀ id ∈ s.havingPin false xs, id ∈ gone) (hrec : ∀ id ∈ xs, ∃ r, s.store.layer id = some r) :
    (xs.filter (· ∉ gone)).length ≤ (s.havingPin true xs).length := by
  rw [State.havingPin_store, ← List.countP_eq_length_filter, ← List.countP_eq_length_filter]
  refine List.countP_mono_left fun id hid hni => ?_
  obtain ⟨r, hr⟩ := hrec id hid
  have hnot : id ∉ s.havingPin false xs := fun h => of_decide_eq_true hni (hgone id h)
  rw [State.havingPin_store, List.mem_filter, hr] at hnot
  rw [hr]
  cases hp : r.pinned <;> simp_all

theorem keepsStore_execErase (t : TrackId) (s : State) : keepsStore s (execErase t s).1 := by
  unfold execErase
  extract_lets tr s1 s2
  split
  · exact .refl s
  · split
    · exact .refl s
    · next hfull =>
      refine keepsStore_freeAndPark (keepsStore_abortOn t .erase s) (fun hl => (abortOn_within hl t .erase).2)
        (fun id hid => ?_) fun hl => ?_
      · exact (List.mem_append.1 hid).imp (fun h => (List.mem_filter.1 h).1) fun h => (List.mem_filter.1 h).1
      · obtain ⟨hw, hq⟩ := abortOn_within hl t .erase
        have hl1 : s1.store.Legal := (keepsStore_abortOn t .erase s).legal hl
        have hstack := hw.stack_pins hl1 t
        have hredo := congrArg List.length (hw.redo_pins hl t true)
        have h1 := length_filter_unpinned (s := s1) (xs := (s1.track t).stack)
          (gone := s1.havingPin false (s1.track t).stack ++ s1.havingPin false (s1.track t).redo)
          (fun id h => List.mem_append_left _ h) fun id hid => by
            obtain ⟨r, hr, -⟩ := hl1.quiet_stack hq hid
            exact ⟨r, hr⟩
        have h2 := length_filter_unpinned (s := s1) (xs := (s1.track t).redo)
          (gone := s1.havingPin false (s1.track t).stack ++ s1.havingPin false (s1.track t).redo)
          (fun id h => List.mem_append_right _ h) fun id hid => by
            obtain ⟨r, hr, -⟩ := (hl1.listed.mem_redo t id).1 hid
            exact ⟨r, hr⟩
        change _ ≤ (s.havingPin true tr.stack).length at hstack
        change _ = (s.havingPin true tr.redo).length at hredo
        change (s1.havingPin true (s1.track t).stack).length ≤ _ at hstack
        change (s1.havingPin true (s1.track t).redo).length = _ at hredo
        omega

theorem keepsStore_execMute (t : TrackId) (on : Bool) (s : State) : keepsStore s (execMute t on s).1 :=
  .of_eq (store_withTrack rfl rfl)

/-! ## The loop set cleared (R49) -/

theorem abortPasses_pass (event : Bool) (i : Input) : ∀ (xs : List Input) (s : State), i ∈ xs ∨ s.store.pass i = none →
    (xs.foldl (fun s i => abortPass false event i s) s).store.pass i = none
  | [], _, h => h.resolve_left (by simp)
  | j :: xs, s, h => by
    refine abortPasses_pass event i xs _ ?_
    rw [abortPass_pass, update_apply]
    by_cases hij : i = j
    · exact .inr (if_pos hij)
    · exact h.imp (fun hm => (List.mem_cons.1 hm).resolve_left hij) fun hn => (if_neg hij).trans hn

theorem store_cancelWaiting (s : State) : (cancelWaiting s).store = { s.store with waiting := [] } :=
  (store_foldl (fun _ _ => store_reply ..) _ _).trans rfl

/-- A hub without passes and without a bounce. -/
structure Store.Still (σ : Store) : Prop where
  pass : ∀ i, σ.pass i = none
  bounce : σ.active = none

theorem store_freeTrack (s : State) (t : TrackId) :
    (freeTrack s t).store = (s.store.stack t ++ s.store.redo t).foldl Store.drop s.store :=
  store_foldl_drop (fun s id => store_dropLayer id s) _ s

/-- A track's layers freed: no record of the track is left. -/
theorem freeTrack_still {s : State} (hl : s.store.Legal) (hs : s.store.Still) (t : TrackId) :
    (freeTrack s t).store.Legal ∧ (freeTrack s t).store.Still ∧
      ∀ id r, (freeTrack s t).store.layer id = some r → s.store.layer id = some r ∧ r.track ≠ t := by
  rw [store_freeTrack]
  obtain ⟨hpass, hact, -⟩ := Store.drops_frame (s.store.stack t ++ s.store.redo t) s.store
  refine ⟨hl.drops (fun id _ i u hi => ?_) fun id _ b hb => ?_, ⟨fun i => hpass ▸ hs.pass i, hact ▸ hs.bounce⟩,
    fun id r hr => ?_⟩
  · rw [hs.pass i] at hi
    cases hi
  · rw [hs.bounce] at hb
    cases hb
  · obtain ⟨hni, hr⟩ := Store.drops_layer_eq_some.1 hr
    refine ⟨hr, fun ht => hni (List.mem_append.2 ?_)⟩
    cases hst : r.state with
    | recording => exact .inl ((hl.listed.mem_stack t id).2 ⟨r, hr, ht, .inl hst⟩)
    | live => exact .inl ((hl.listed.mem_stack t id).2 ⟨r, hr, ht, .inr hst⟩)
    | parked => exact .inr ((hl.listed.mem_redo t id).2 ⟨r, hr, ht, hst⟩)
    | forming => exact absurd hst (hl.bounced.no_forming hs.bounce hr)

theorem freeTracks_still : ∀ (ts : List TrackId) {s : State}, s.store.Legal → s.store.Still →
    (ts.foldl freeTrack s).store.Legal ∧ (ts.foldl freeTrack s).store.Still ∧
      ∀ id r, (ts.foldl freeTrack s).store.layer id = some r → s.store.layer id = some r ∧ r.track ∉ ts
  | [], _, hl, hs => ⟨hl, hs, fun _ _ h => ⟨h, by simp⟩⟩
  | t :: ts, s, hl, hs => by
    obtain ⟨hl1, hs1, h1⟩ := freeTrack_still hl hs t
    obtain ⟨hl2, hs2, h2⟩ := freeTracks_still ts hl1 hs1
    refine ⟨hl2, hs2, fun id r hr => ?_⟩
    obtain ⟨hr1, ht1⟩ := h2 id r hr
    obtain ⟨hr0, ht0⟩ := h1 id r hr1
    exact ⟨hr0, by simp [ht0, ht1]⟩

theorem placed_freeTracks : ∀ (ts : List TrackId) (s : State), (ts.foldl freeTrack s).store.placed = s.store.placed
  | [], _ => rfl
  | t :: ts, s => by
    refine (placed_freeTracks ts (freeTrack s t)).trans ?_
    rw [store_freeTrack, Store.placed_drops]

/-- The store without tracks' lists and with no pinned pages. -/
def Store.emptied (σ : Store) : Store := { σ with stack := fun _ => [], redo := fun _ => [], pinnedTotal := 0 }

theorem Store.placed_emptied (σ : Store) : σ.emptied.placed = σ.placed := rfl

theorem Store.Still.emptied {σ : Store} (h : σ.Still) (hl : σ.Legal) (hn : ∀ id, σ.layer id = none) :
    σ.emptied.Legal := by
  have no : ∀ {id r}, σ.layer id = some r → False := fun hr => by rw [hn] at hr; cases hr
  have hsum : σ.emptied.pinnedTotal = ∑ id, σ.emptied.pinnedPages id := by
    refine (Finset.sum_eq_zero fun id _ => ?_).symm
    simp only [Store.pinnedPages, Store.emptied, hn, Option.elim_none]
  refine ⟨⟨⟨fun _ => Nat.zero_le _, fun _ => Nat.zero_le _, fun _ => List.nodup_nil, fun _ => List.nodup_nil,
    fun t id => ⟨fun hm => (by cases hm), fun ⟨_, hr, _⟩ => (no hr).elim⟩,
    fun t id => ⟨fun hm => (by cases hm), fun ⟨_, hr, _⟩ => (no hr).elim⟩⟩,
    ⟨hl.stamped.parks_le, fun _ _ hr => (no hr).elim, fun _ _ _ _ hr => (no hr).elim⟩,
    ⟨hsum, Nat.zero_le _, fun _ _ hr => (no hr).elim⟩,
    ⟨fun i id t hi => ?_, fun i j id t u hi => ?_, fun _ _ hr => (no hr).elim⟩⟩,
    ⟨fun _ _ hr => (no hr).elim, fun _ => h.bounce, fun b id hb => ?_, fun b hb => ?_, fun b id hb => ?_,
      hl.bounced.waiting⟩⟩
  · exact absurd (h.pass i) (by rw [show σ.pass i = _ from hi]; simp)
  · exact absurd (h.pass i) (by rw [show σ.pass i = _ from hi]; simp)
  all_goals exact absurd h.bounce (by rw [show σ.active = _ from hb]; simp)

/-- The tracks given their reset records (R49). -/
def emptyTracks (s : State) : State :=
  let u := s.withPgp { s.pgp with pinnedTotal := 0 }
  { u with lys.tracks := Vector.replicate 8 Track.reset }

theorem store_emptyTracks (s : State) : (emptyTracks s).store = s.store.emptied := by
  have htrack : ∀ t, (emptyTracks s).track t = Track.reset := fun t => by
    simp only [emptyTracks, State.track, Fin.getElem_fin, Vector.getElem_replicate]
  have hstack : (fun t => ((emptyTracks s).track t).stack) = fun _ => [] := funext fun t => by rw [htrack]; rfl
  have hredo : (fun t => ((emptyTracks s).track t).redo) = fun _ => [] := funext fun t => by rw [htrack]; rfl
  simp only [State.store, hstack, hredo, Store.emptied]
  rfl

/-- What SONG_CLEAR does before the layers are freed. -/
def quietSong (s : State) : State :=
  cancelWaiting (abortBounce false .songClear (allInputs.foldl (fun s i => abortPass false true i s) s))

theorem clearSong_eq (s : State) : clearSong s = lowMark (emptyTracks (allTracks.foldl freeTrack (quietSong s))) := by
  unfold clearSong quietSong emptyTracks
  dsimp only

theorem keepsStore_abortPasses (s : State) :
    keepsStore s (allInputs.foldl (fun s i => abortPass false true i s) s) :=
  keepsStore_foldl (fun s i => keepsStore_abortPass false true i s) allInputs s

theorem keepsStore_quietSong (s : State) : keepsStore s (quietSong s) :=
  (keepsStore_abortPasses s).trans ((keepsStore_abortBounce ..).trans (keepsStore_cancelWaiting _))

theorem quietSong_still {s : State} (hl : s.store.Legal) : (quietSong s).store.Still := by
  obtain ⟨-, hact, hpass⟩ := abortBounce_within ((keepsStore_abortPasses s).legal hl) false .songClear
  rw [quietSong, store_cancelWaiting]
  exact ⟨fun i => (congrFun hpass i).trans (abortPasses_pass true i allInputs s (.inl (mem_allInputs i))), hact⟩

/-- Every layer freed and every track EMPTY, where no pass and no bounce holds a layer. -/
theorem emptySong_store (s : State) :
    (emptyTracks (allTracks.foldl freeTrack s)).store.placed = s.store.placed ∧
      (s.store.Legal → s.store.Still → (emptyTracks (allTracks.foldl freeTrack s)).store.Legal) := by
  rw [store_emptyTracks, Store.placed_emptied]
  refine ⟨placed_freeTracks allTracks s, fun hl hs => ?_⟩
  obtain ⟨hl3, hs3, h3⟩ := freeTracks_still allTracks hl hs
  have hmem : ∀ t : TrackId, t ∈ allTracks := by decide
  exact hs3.emptied hl3 fun id => Option.eq_none_iff_forall_ne_some.2 fun r hr => (h3 id r hr).2 (hmem r.track)

theorem keepsStore_clearSong (s : State) : keepsStore s (clearSong s) := by
  rw [clearSong_eq]
  have hquiet := keepsStore_quietSong s
  have hstill := quietSong_still (s := s)
  generalize quietSong s = u at hquiet hstill
  obtain ⟨hplaced, hlegal⟩ := emptySong_store u
  exact .trans ⟨fun hp => hplaced.trans (hquiet.placed hp), fun hl => hlegal (hquiet.legal hl) (hstill hl)⟩
    (keepsStore_lowMark _)

/-! ## The action queue -/

theorem keepsStore_cancelQueue (s : State) : keepsStore s (cancelQueue s) :=
  .of_eq ((store_foldl (fun _ _ => store_reply ..) _ _).trans rfl)

theorem keepsStore_withCyc (s : State) (x : Cyc) : keepsStore s (s.withCyc x) := .of_eq rfl

theorem keepsStore_withAqu (s : State) (x : Aqu) : keepsStore s (s.withAqu x) := .of_eq rfl

theorem keepsStore_withTmc (s : State) (x : Tmc) : keepsStore s (s.withTmc x) := .of_eq rfl

theorem keepsStore_execStop (s : State) : keepsStore s (execStop s).1 := by
  unfold execStop
  split
  · exact (keepsStore_withCyc s _).trans (keepsStore_cancelQueue _)
  · split
    · exact ((keepsStore_withCyc s _).trans (keepsStore_cutAll _ _ _)).trans (keepsStore_cancelQueue _)
    · exact .refl s

theorem keepsStore_execAction (a : Action) (d : Nat) (s : State) : keepsStore s (execAction a d s).1 := by
  cases a with
  | transportStop => exact keepsStore_execStop s
  | passOpen i t => exact keepsStore_execOpen ..
  | passClose i => exact keepsStore_execClose ..
  | layerUndo t => exact keepsStore_execUndo ..
  | layerRedo t => exact keepsStore_execRedo ..
  | trackClear t => exact keepsStore_execClear ..
  | trackMute t on => exact keepsStore_execMute ..

theorem keepsStore_execEntry (e : Entry) (s : State) : keepsStore s (execEntry e s).1 := by
  unfold execEntry
  split
  · split
    · exact keepsStore_execClose ..
    · exact .refl s
  · exact keepsStore_execAction ..

theorem keepsStore_dueEntry (s : State) : keepsStore s (dueEntry s) := by
  unfold dueEntry
  split
  · exact .refl s
  · exact ((keepsStore_withAqu s _).trans (keepsStore_execEntry _ _)).trans (keepsStore_reply ..)

theorem keepsStore_dueEntries : ∀ (n : Nat) (s : State), keepsStore s (dueEntries n s)
  | 0, s => .refl s
  | n + 1, s => keepsStore_ite (((keepsStore_dueEntry s).trans (keepsStore_advanceQueue _)).trans
      (keepsStore_dueEntries n _)) (.refl s)

theorem keepsStore_takeQuantized (lk : Link) (tag : Byte) (a : Action) (mode : Quantize) (s : State) :
    keepsStore s (takeQuantized lk tag a mode s).1 := by
  unfold takeQuantized
  split
  · exact .refl s
  · split
    · exact (keepsStore_withAqu s _).trans (keepsStore_reply ..)
    · split
      · exact .refl s
      · split
        · exact keepsStore_execAction ..
        · split
          · exact keepsStore_withAqu ..
          · exact keepsStore_withAqu ..

/-! ## The hold machine -/

theorem keepsStore_stopTimeline (s : State) : keepsStore s (stopTimeline s) := by
  unfold stopTimeline
  split
  · exact (keepsStore_withCyc s _).trans (keepsStore_cancelQueue _)
  · split
    · exact (keepsStore_withCyc s _).trans (keepsStore_cancelQueue _)
    · exact (keepsStore_withCyc s _).trans (keepsStore_cancelQueue _)
  · exact .refl s

theorem keepsStore_enterHold (cause : HoldCause) (station : Option Link) (s : State) :
    keepsStore s (enterHold cause station s) := by
  have h := ((((keepsStore_strokes 4 s).trans (keepsStore_advanceQueue _)).trans
    (keepsStore_cutAll .hold false _)).trans (keepsStore_stopTimeline _)).trans (keepsStore_pendSuspend _)
  exact (h.trans (keepsStore_withTmc _ _)).trans (keepsStore_emit _ _)

theorem keepsStore_takeTrigger (s : State) : keepsStore s (takeTrigger s) := by
  unfold takeTrigger
  split
  · exact .refl s
  · extract_lets _ s1
    have h1 : keepsStore s s1 := keepsStore_withTmc s _
    exact keepsStore_ite (h1.trans (keepsStore_enterHold _ _ _)) h1

theorem keepsStore_drain (s : State) : keepsStore s (drain s) :=
  keepsStore_ite ((keepsStore_withTmc s _).trans (keepsStore_emit _ _)) (.refl s)

theorem keepsStore_restart (s : State) : keepsStore s (restart s) := by
  refine (keepsStore_withCyc s _).trans (keepsStore_foldl (fun s t => ?_) allTracks _)
  exact keepsStore_ite (.refl s) (.of_eq (store_withTrack rfl rfl))

theorem keepsStore_emitMarks (s : State) : keepsStore s (emitMarks s) := .of_eq (store_emitMarks s)

theorem keepsStore_wake (s : State) : keepsStore s (wake s) := by
  unfold wake
  refine keepsStore_ite ?_ (.refl s)
  extract_lets cause _ s1 restarts s2 s3
  have h2 : keepsStore s s2 := (keepsStore_withTmc s _).trans
    ((keepsStore_ite (keepsStore_restart s1) (.refl s1)).trans (keepsStore_unsuspend _))
  have h3 : keepsStore s s3 := h2.trans (keepsStore_emit _ s2)
  exact keepsStore_ite (h3.trans (keepsStore_emitMarks s3)) h3

theorem keepsStore_scheduledStart (s : State) : keepsStore s (scheduledStart s) :=
  keepsStore_ite ((keepsStore_withCyc s _).trans (keepsStore_emitMarks _)) (.refl s)

/-! ## Settling -/

theorem keepsStore_settleStart (s : State) : keepsStore s (settleStart s) := by
  have h1 := ((((keepsStore_settleEnd s).trans (keepsStore_wake _)).trans (keepsStore_autoClose _)).trans
    (keepsStore_scheduledStart _)).trans (keepsStore_settlePasses _)
  have h2 := (h1.trans (keepsStore_dueEntries (settlePasses (scheduledStart (autoClose (wake (settleEnd s))))).aqu.queue.length
    _)).trans (keepsStore_advanceQueue _)
  exact (h2.trans (keepsStore_ite (keepsStore_strokes 4 _) (.refl _))).trans (keepsStore_drain _)

theorem keepsStore_settleAll (s : State) : keepsStore s (settleAll s) := by
  have h1 := ((keepsStore_settleStart s).trans ((keepsStore_strokes 4 _).trans (keepsStore_advanceQueue _))).trans
    (keepsStore_drain _)
  unfold settleAll
  extract_lets s1
  exact keepsStore_ite (h1.trans (keepsStore_takeTrigger _)) h1

end Sys2Proof.Machine
end

section
/-! PROOFS. The operations of the links keep the pages placed and the store in order. -/

namespace Sys2Proof.Machine

/-- What the invariants do not read of an input. -/
theorem keepsStore_withInput {s : State} {i : Input} {x : InputRec} (h : x.pass = s.pass i) :
    keepsStore s (s.withInput i x) := .of_eq (store_withInput h)


theorem keepsStore_mapLink (lk : Link) (f : LinkRec → LinkRec) (s : State) : keepsStore s (mapLink lk f s) :=
  keepsStore.of_eq rfl

theorem keepsStore_mapCounters (lk : Link) (f : StationCounters → StationCounters) (s : State) :
    keepsStore s (mapCounters lk f s) := keepsStore_mapLink ..

theorem keepsStore_setSlot (lk : Link) (k : Fin 2) (x : Option FwdSlot) (s : State) : keepsStore s (setSlot lk k x s) :=
  keepsStore_mapLink ..

theorem keepsStore_mapSlot (lk : Link) (k : Fin 2) (f : FwdSlot → FwdSlot) (s : State) :
    keepsStore s (mapSlot lk k f s) := by
  unfold mapSlot
  split
  · exact keepsStore.refl s
  · exact keepsStore_setSlot ..

theorem keepsStore_setAssembly (lk : Link) (a : Assembly) (s : State) : keepsStore s (setAssembly lk a s) :=
  keepsStore_mapLink ..

theorem keepsStore_finishBroadcasts (s : State) : keepsStore s (finishBroadcasts s) :=
  keepsStore.trans (u := { s with slk.broadcasts := s.slk.broadcasts.filter fun b => s.groupOpen b.group })
    (keepsStore.of_eq rfl)
    (keepsStore_foldl (fun s _ => keepsStore_ite (keepsStore_mapCounters _ _ s) (keepsStore.refl s)) _ _)

theorem keepsStore_closeCopies (f : Forwarding) (s : State) : keepsStore s (closeCopies f s) :=
  (keepsStore_foldl (fun s _ => keepsStore_ite
    ((keepsStore_setSlot _ _ _ s).trans (keepsStore_mapLink _ _ _)) (keepsStore_setSlot _ _ _ s)) f.copies s).trans
    (keepsStore_finishBroadcasts _)

theorem keepsStore_deliver (lk : Link) (b : EventBody) (info : BlockInfo) (s : State) : keepsStore s (deliver lk b info s) :=
  keepsStore_of_events (onlyEvents_deliver lk b info s)

theorem keepsStore_routeFail (lk : Link) (r : RouteReason) (d : Byte) (ls : List Link) (n : Nat) (s : State) :
    keepsStore s (routeFail lk r d ls n s) := by
  unfold routeFail
  exact keepsStore_ite ((keepsStore_mapCounters _ _ s).trans (keepsStore_deliver _ _ _ _)) (keepsStore.refl s)

theorem keepsStore_passedOn (begun : Bool) (n : Nat) (s : State) : keepsStore s (passedOn begun n s).2 := by
  unfold passedOn
  split <;> exact keepsStore.of_eq rfl

theorem keepsStore_tooLong (lk : Link) (f : Forwarding) (s : State) : keepsStore s (tooLong lk f s) :=
  (((keepsStore_passedOn _ _ s).trans (keepsStore_closeCopies _ _)).trans (keepsStore_setAssembly _ _ _)).trans
    (keepsStore_routeFail _ _ _ _ _ _)

theorem keepsStore_passOver (lk : Link) (r : RouteReason) (d : Byte) (ls : List Link) (s : State) :
    keepsStore s (routeFail lk r d ls 0 (setAssembly lk .passOver s)) :=
  (keepsStore_setAssembly _ _ s).trans (keepsStore_routeFail _ _ _ _ _ _)

theorem keepsStore_routeForward (lk : Link) (dest : Byte) (s : State) : keepsStore s (routeForward lk dest s) := by
  unfold routeForward
  split
  · exact keepsStore_passOver ..
  · refine keepsStore_ite (keepsStore_passOver ..) (keepsStore_ite (keepsStore_passOver ..) ?_)
    split
    · exact keepsStore_passOver ..
    · exact (keepsStore_setSlot _ _ _ s).trans (keepsStore_setAssembly _ _ _)

theorem keepsStore_routeBroadcast (lk : Link) (s : State) : keepsStore s (routeBroadcast lk s) := by
  unfold routeBroadcast
  extract_lets copies busy g s2 _ s1
  have h2 : keepsStore s s2 := keepsStore_foldl (fun s x => keepsStore_setSlot _ _ _ s) copies s
  clear_value s2
  have h1 : keepsStore s s1 := keepsStore_ite (keepsStore_setAssembly _ _ s) (h2.trans (keepsStore.of_eq rfl))
  exact keepsStore_ite h1 (h1.trans (keepsStore_routeFail _ _ _ _ _ _))

theorem keepsStore_beginPacket (lk : Link) (dest : Byte) (s : State) : keepsStore s (beginPacket lk dest s) := by
  unfold beginPacket
  exact keepsStore_ite (keepsStore_setAssembly ..) (keepsStore_ite (keepsStore_routeBroadcast ..) (keepsStore_routeForward ..))

theorem keepsStore_mapCopies (xs : List (Link × Fin 2)) (f : FwdSlot → FwdSlot) (s : State) :
    keepsStore s (xs.foldl (fun s x => mapSlot x.1 x.2 f s) s) :=
  keepsStore_foldl (fun s _ => keepsStore_mapSlot _ _ _ s) xs s

theorem keepsStore_dataByte (lk : Link) (b : Byte) (s : State) : keepsStore s (dataByte lk b s) := by
  unfold dataByte
  split
  · exact keepsStore_beginPacket ..
  · exact keepsStore_setAssembly ..
  · exact keepsStore.refl s
  · exact keepsStore_ite (keepsStore_tooLong ..) ((keepsStore_mapCopies _ _ s).trans (keepsStore_setAssembly _ _ _))

theorem keepsStore_forwardEnd (lk : Link) (s : State) : keepsStore s (forwardEnd lk s) := by
  unfold forwardEnd
  split
  · exact keepsStore.refl s
  · exact keepsStore.refl s
  · exact keepsStore_setAssembly ..
  · extract_lets s1
    have h1 : keepsStore s s1 := (keepsStore_mapCopies _ _ s).trans (keepsStore_setAssembly _ _ _)
    exact keepsStore_ite (h1.trans (keepsStore_mapCounters _ _ _)) h1

theorem keepsStore_forwardFault (lk : Link) (s : State) : keepsStore s (forwardFault lk s) := by
  unfold forwardFault
  split
  · exact keepsStore.refl s
  · exact keepsStore.refl s
  · exact keepsStore_setAssembly ..
  · extract_lets begun s1
    have h1 : keepsStore s s1 := (keepsStore_closeCopies _ s).trans (keepsStore_setAssembly _ _ _)
    exact keepsStore_ite (h1.trans (keepsStore_mapCounters _ _ _)) h1

theorem keepsStore_loseSlot (lk : Link) (k : Fin 2) (s : State) : keepsStore s (loseSlot lk k s) := by
  unfold loseSlot
  split
  · exact keepsStore.refl s
  · exact (((keepsStore_passedOn _ _ s).trans (keepsStore_setSlot _ _ _ _)).trans (keepsStore_mapLink _ _ _)).trans
      (keepsStore_routeFail _ _ _ _ _ _)

theorem keepsStore_dropForward (lk : Link) (s : State) : keepsStore s (dropForward lk s) := by
  unfold dropForward
  split
  · exact (keepsStore_setAssembly _ _ s).trans (keepsStore_closeCopies _ _)
  · exact keepsStore_setAssembly ..

/-- A link leaves RUN (R174): its input's pass is cut, and nothing else of the departure touches the timeline. -/
theorem keepsStore_depart (lk : Link) (cause : RecoveryCause) (char : Nat) (s : State) :
    keepsStore s (depart lk cause char s) := by
  unfold depart
  extract_lets s1 s2 s3
  have h1 : keepsStore s s1 :=
    ((keepsStore_mapLink _ _ s).trans (keepsStore_dropForward _ _)).trans (keepsStore_mapLink _ _ _)
  clear_value s1
  have h2 : keepsStore s s2 :=
    ((h1.trans (keepsStore_loseSlot _ _ _)).trans (keepsStore_loseSlot _ _ _)).trans (keepsStore_finishBroadcasts _)
  clear_value s2
  have h3 : keepsStore s s3 := (h2.trans (keepsStore_withInput rfl : keepsStore s2 (emptyInput lk s2))).trans
    (keepsStore_cutPass _ _ _ _)
  clear_value s3
  exact (h3.trans ((keepsStore_withAqu s3 _).trans (keepsStore_bounceDeparture lk _))).trans
    (keepsStore_emit _ _)

theorem keepsStore_joinDataError (lk : Link) (char : Nat) (s : State) : keepsStore s (joinDataError lk char s) :=
  keepsStore.of_eq rfl

theorem keepsStore_causedError (lk : Link) (cause : RecoveryCause) (char : Nat) (s : State) :
    keepsStore s (causedError lk cause char s) := by
  unfold causedError
  split
  · exact (keepsStore_settleStart s).trans (keepsStore_depart _ _ _ _)
  · exact keepsStore_mapLink ..
  · exact keepsStore_mapLink ..
  · exact keepsStore.refl s

theorem keepsStore_receive (lk : Link) (k : State → State) (s : State) (h : keepsStore s (k s)) :
    keepsStore s (receive lk k s) := by
  unfold receive
  split
  · exact h
  · exact keepsStore_joinDataError ..
  · exact keepsStore_mapLink ..
  · exact keepsStore.refl s

theorem keepsStore_receiveEnd (lk : Link) (k : State → State) (s : State) (h : keepsStore s (k s)) :
    keepsStore s (receiveEnd lk k s) := by
  unfold receiveEnd
  exact keepsStore_ite h (keepsStore_causedError ..)

theorem keepsStore_receptionReply (lk : Link) (r : Byte) (tag : Option Byte) (c : ReplyCode) (s : State) :
    keepsStore s (receptionReply lk r tag c s) :=
  keepsStore.of_eq (State.store_of_inner (receptionReply_inner lk r tag c s))

theorem keepsStore_arrive (i : Input) (stamp : Nat) (b : Block) (s : State) : keepsStore s (arrive i stamp b s) := by
  unfold arrive
  extract_lets r d again
  split_ifs <;> exact keepsStore_withInput rfl

theorem keepsStore_hubPacket (lk : Link) (bytes : List Byte) (overlong : Bool) (s : State) :
    keepsStore s (hubPacket lk bytes overlong s) := by
  unfold hubPacket
  split
  · unfold offerRequest
    exact keepsStore_ite (keepsStore.of_eq rfl) ((keepsStore_mapCounters _ _ s).trans (keepsStore_receptionReply _ _ _ _ _))
  · exact keepsStore_ite (keepsStore_arrive ..) (keepsStore_mapCounters ..)
  · exact keepsStore_mapCounters ..
  · exact (keepsStore_mapCounters _ _ s).trans (keepsStore_receptionReply _ _ _ _ _)

theorem keepsStore_receiveHub (lk : Link) (bytes : List Byte) (s : State) : keepsStore s (receiveHub lk bytes s) :=
  keepsStore_receive _ _ _ (keepsStore_ite ((keepsStore_setAssembly _ _ s).trans (keepsStore_hubPacket _ _ _ _))
    (keepsStore.refl s))

theorem keepsStore_packetEnd (lk : Link) (s : State) : keepsStore s (packetEnd lk s) := by
  unfold packetEnd
  split
  · exact (keepsStore_setAssembly _ _ s).trans (keepsStore_hubPacket _ _ _ _)
  · exact keepsStore_forwardEnd ..

theorem keepsStore_discardFaulted (lk : Link) (s : State) : keepsStore s (discardFaulted lk s) :=
  (keepsStore_setAssembly _ _ s).trans (keepsStore_mapCounters _ _ _)

theorem keepsStore_packetFault (lk : Link) (s : State) : keepsStore s (packetFault lk s) := by
  unfold packetFault
  split
  · exact keepsStore_discardFaulted ..
  · exact keepsStore_forwardFault ..

theorem keepsStore_clearInputCounts (i : Input) (s : State) : keepsStore s (clearInputCounts i s) :=
  keepsStore_withInput rfl

theorem keepsStore_join (lk : Link) (s : State) : keepsStore s (join lk s) := by
  unfold join
  extract_lets s1
  have h1 : keepsStore s s1 := keepsStore_mapLink ..
  clear_value s1
  have h2 : keepsStore s1 (s1.withStation lk Settings.reset) := .of_eq rfl
  exact ((h1.trans h2).trans (keepsStore_clearInputCounts lk _)).trans (keepsStore_emit _ _)

theorem keepsStore_startPacket (lk : Link) (s : State) : keepsStore s (startPacket lk s) := by
  unfold startPacket
  refine keepsStore_ite ?_ (keepsStore.refl s)
  split
  · exact keepsStore.of_eq rfl
  · exact keepsStore.of_eq rfl
  · exact keepsStore.of_eq rfl
  · split
    · exact keepsStore.refl s
    · exact (keepsStore.of_eq rfl : keepsStore s (s.withLink lk _)).trans (keepsStore_mapSlot _ _ _ _)

theorem keepsStore_endPacket (lk : Link) (s : State) : keepsStore s (endPacket lk s) := by
  unfold endPacket
  extract_lets r
  split
  · exact keepsStore.of_eq rfl
  · split
    · next x _ =>
      refine keepsStore_ite ?_ (keepsStore.refl s)
      refine keepsStore.trans (u := markWhole x.group _) (keepsStore.of_eq ?_) (keepsStore_finishBroadcasts _)
      unfold markWhole
      split <;> rfl
    · exact keepsStore.refl s
  · exact keepsStore.refl s

end Sys2Proof.Machine
end

section
/-! PROOFS. The requests' owners and the readings keep the pages placed and the store in order. -/

namespace Sys2Proof.Machine

open Function (update update_apply)

/-! ## The requests -/

/-- A request served: settling, taking and answering keep the store, so the owner decides. -/
theorem keepsStore_serve (lk : Link) (c : Instr) (code : Byte) (tag : Option Byte) (ends : Bool) {owner : State → Answer}
    (s : State) (h : ∀ x, keepsStore x (owner x).1) : keepsStore s (serve lk c code tag ends owner s) := by
  unfold serve
  refine keepsStore_ite (keepsStore.refl s) ?_
  extract_lets s1
  have h1 : keepsStore s s1 := keepsStore_settleStart s
  have h2 : keepsStore s1 (taken lk ends s1) := keepsStore.of_eq (State.store_of_inner (taken_inner lk ends s1))
  exact keepsStore_ite (((h1.trans h2).trans (h _)).trans (keepsStore.of_eq (State.store_of_inner (pushReply_inner _ _ _)))) (keepsStore.refl s)

theorem keepsStore_outsideHold {s : State} {owner : State → Answer} (h : keepsStore s (owner s).1) :
    keepsStore s (outsideHold s owner).1 := by
  unfold outsideHold
  split
  · exact keepsStore.refl s
  · exact h

theorem keepsStore_answer {s u : State} {c : ReplyCode} (h : keepsStore s u) : keepsStore s (answer u c).1 := h

theorem keepsStore_ownCycleSet (length : Word16) (beats : Byte) (s : State) :
    keepsStore s (ownCycleSet length beats s).1 := by
  unfold ownCycleSet
  split
  · exact keepsStore.refl s
  · apply keepsStore_outsideHold
    split
    · exact keepsStore_answer ((keepsStore_withCyc s _).trans (keepsStore_emitMarks _))
    · exact keepsStore.refl s

theorem keepsStore_ownTap (beats : Byte) (s : State) : keepsStore s (ownTap beats s).1 := by
  unfold ownTap
  split
  · exact keepsStore.refl s
  · apply keepsStore_outsideHold
    split
    · exact keepsStore_withCyc ..
    · split
      · exact keepsStore_withCyc ..
      · exact keepsStore.refl s

theorem keepsStore_ownTransportStop (lk : Link) (tag q : Byte) (s : State) :
    keepsStore s (ownTransportStop lk tag q s).1 := by
  unfold ownTransportStop
  split
  · exact keepsStore.refl s
  · exact keepsStore_takeQuantized ..

theorem keepsStore_ownTransportStart (q : Byte) (s : State) : keepsStore s (ownTransportStart q s).1 := by
  unfold ownTransportStart
  split
  · exact keepsStore.refl s
  · apply keepsStore_outsideHold
    split
    · exact keepsStore_answer ((keepsStore_restart s).trans (keepsStore_emitMarks _))
    · exact keepsStore.refl s

theorem keepsStore_ownSongClear (s : State) : keepsStore s (ownSongClear s).1 := by
  apply keepsStore_outsideHold
  extract_lets stops s1 _ s2
  have h1 : keepsStore s s1 := ((keepsStore_of_events (onlyEvents_releaseMarks s)).trans (keepsStore_clearSong _))
  clear_value s1
  have h2 : keepsStore s s2 := h1.trans (keepsStore_withCyc s1 _)
  exact keepsStore_answer (keepsStore_ite (h2.trans (keepsStore_cancelQueue s2)) h2)

theorem keepsStore_ownPassOpen (lk : Link) (tag i t q : Byte) (s : State) :
    keepsStore s (ownPassOpen lk tag i t q s).1 := by
  unfold ownPassOpen
  split
  · exact keepsStore_takeQuantized ..
  · exact keepsStore.refl s

theorem keepsStore_ownPassClose (lk : Link) (tag i q : Byte) (s : State) :
    keepsStore s (ownPassClose lk tag i q s).1 := by
  unfold ownPassClose
  split
  · exact keepsStore_takeQuantized ..
  · exact keepsStore.refl s

theorem keepsStore_ownOnTrack (lk : Link) (tag : Byte) (f : TrackId → Action) (t q : Byte) (s : State) :
    keepsStore s (ownOnTrack lk tag f t q s).1 := by
  unfold ownOnTrack
  split
  · exact keepsStore_takeQuantized ..
  · exact keepsStore.refl s

theorem keepsStore_ownTrackMute (lk : Link) (tag t q x : Byte) (s : State) :
    keepsStore s (ownTrackMute lk tag t q x s).1 := by
  unfold ownTrackMute
  split
  · exact keepsStore_takeQuantized ..
  · exact keepsStore.refl s

theorem keepsStore_ownTrackErase (t : Byte) (s : State) : keepsStore s (ownTrackErase t s).1 := by
  unfold ownTrackErase
  split
  · exact keepsStore.refl s
  · exact keepsStore_outsideHold (keepsStore_execErase _ s)

/-- The requests whose owners leave the store as it is. -/
theorem ownTrackLevel_store (t : Byte) (v : Word16) (s : State) : (ownTrackLevel t v s).1.store = s.store := by
  unfold ownTrackLevel outsideHold
  split
  · rfl
  · split
    · rfl
    · exact store_withTrack rfl rfl

theorem ownTrackRoute_store (t r : Byte) (s : State) : (ownTrackRoute t r s).1.store = s.store := by
  unfold ownTrackRoute outsideHold
  split
  · split
    · rfl
    · exact store_withTrack rfl rfl
  · rfl

theorem ownLayerLevel_store (l : Byte) (v : Word16) (s : State) : (ownLayerLevel l v s).1.store = s.store := by
  unfold ownLayerLevel outsideHold
  split
  · rfl
  · next id _ =>
    split
    · rfl
    · beta_reduce
      split
      · rfl
      · next x hx =>
        split_ifs
        · rfl
        · rfl
        · refine (store_withLayer ..).trans ?_
          have hrec : some x.record = s.store.layer id := (State.store_layer_of hx).symm
          change { s.store with layer := update s.store.layer id (some x.record) } = s.store
          rw [hrec, Function.update_eq_self]

/-! ## Pins (R47, R48, R64) -/

/-- A record's pin set or taken away, with the pinned pages then counted. -/
def Store.setPin (σ : Store) (id : LayerId) (on : Bool) (n : Nat) : Store :=
  { σ.mapRecord id fun r => { r with pinned := on } with pinnedTotal := n }

theorem Store.Legal.setPin {σ : Store} (h : σ.Legal) {id : LayerId} {r : Record} {on : Bool} {n : Nat}
    (hr : σ.layer id = some r)
    (hon : on = true → (r.state = .live ∨ r.state = .parked) ∧ ∀ b, σ.active = some b → id ∉ b.sources)
    (hn : n + r.pinnedPages = σ.pinnedTotal + Record.pinnedPages { r with pinned := on }) (hle : n ≤ 3072) :
    (σ.setPin id on n).Legal := by
  have one : ∀ x, σ.layer id = some x → x = r := fun x hx => by rw [hr] at hx; cases hx; rfl
  have hl := h.listed.mapRecord (id := id) (f := fun r => { r with pinned := on }) fun x _ => ⟨rfl, Iff.rfl, Iff.rfl⟩
  have hs := h.stamped.mapRecord (id := id) (f := fun r => { r with pinned := on }) fun x _ hx => ⟨hx, rfl⟩
  have hh := h.held.mapRecord (id := id) (f := fun r => { r with pinned := on }) fun x _ => ⟨Iff.rfl, rfl⟩
  have hb := h.bounced.mapRecord (id := id) (f := fun r => { r with pinned := on }) fun x hx => by
    refine ⟨Iff.rfl, rfl, fun h1 _ ⟨b, hact, hid⟩ => ⟨h1, ?_⟩⟩
    cases hon' : on with
    | false => rfl
    | true => exact absurd hid ((hon hon').2 b hact)
  have hsum := sum_change (f := (σ.setPin id on n).pinnedPages) (g := σ.pinnedPages) id fun k hk => by
    simp only [Store.pinnedPages, Store.setPin, Store.mapRecord, Function.update_of_ne hk]
  have hself : (σ.setPin id on n).pinnedPages id = Record.pinnedPages { r with pinned := on } := by
    simp only [Store.pinnedPages, Store.setPin, Store.mapRecord, Function.update_self, hr, Option.map_some,
      Option.elim_some]
  have hold : σ.pinnedPages id = r.pinnedPages := by simp only [Store.pinnedPages, hr, Option.elim_some]
  have htotal : n = ∑ k, (σ.setPin id on n).pinnedPages k := by
    have := h.pinned.total
    rw [hself, hold] at hsum
    omega
  refine ⟨⟨⟨hl.1, hl.2, hl.3, hl.4, hl.5, hl.6⟩, ⟨hs.1, hs.2, hs.3⟩, ⟨htotal, hle, fun k x hx hp => ?_⟩,
    ⟨hh.1, hh.2, hh.3⟩⟩, ⟨hb.1, hb.2, hb.3, hb.4, hb.5, hb.6⟩⟩
  obtain ⟨-, hx⟩ | ⟨-, y, hy, rfl⟩ := Store.mapRecord_layer.1 hx
  · exact h.pinned.states k x hx hp
  · rw [one y hy]
    exact (hon hp).1

theorem Store.placed_setPin (σ : Store) (id : LayerId) (on : Bool) (n : Nat) : (σ.setPin id on n).placed = σ.placed :=
  Store.placed_mapRecord (σ := σ) (f := fun r => { r with pinned := on }) fun _ => rfl

theorem store_setPin {s : State} {id : LayerId} {l : Layer} (hl : s.layer id = some l) (on : Bool) (n : Nat) :
    ((s.withLayer id (some { l with pinned := on })).withPgp { s.pgp with pinnedTotal := n }).store =
      s.store.setPin id on n := by
  have h : ((s.withLayer id (some { l with pinned := on })).withPgp { s.pgp with pinnedTotal := n }).store =
      { (s.withLayer id (some { l with pinned := on })).store with pinnedTotal := n } := rfl
  rw [h, store_withLayer]
  simp only [Store.setPin, Store.mapRecord, State.store_layer_of hl, Option.map_some]
  rfl

theorem Layer.record_pinnedPages (l : Layer) :
    l.record.pinnedPages = if l.pinned then l.map.length else 0 := by
  simp only [Record.pinnedPages, Layer.record, Multiset.coe_card, List.length_map]

theorem keepsStore_pinOn (id : LayerId) (s : State) : keepsStore s (pinOn id s).1 := by
  unfold pinOn
  split
  · exact .refl s
  · next l hl =>
    split_ifs with h1 h2 h3 h4
    · exact .refl s
    · exact .refl s
    · exact .refl s
    · exact .refl s
    · refine .of_placed (by rw [answer, store_setPin hl, Store.placed_setPin]) fun hlegal => ?_
      rw [answer, store_setPin hl]
      have hp : l.pinned = false := by simpa using h3
      refine hlegal.setPin (State.store_layer_of hl) (fun _ => ⟨?_, fun b hb hid => ?_⟩) ?_ (Nat.le_of_not_lt h4)
      · simp only [Bool.or_eq_true, decide_eq_true_eq, not_or] at h1
        cases hst : l.state with
        | recording => exact absurd hst h1.1
        | forming => exact absurd hst h1.2
        | live => exact .inl hst
        | parked => exact .inr hst
      · exact h2 (State.isSource_store.2 ⟨b, hb, hid⟩)
      · have hone : Record.pinnedPages { l.record with pinned := true } = l.map.length :=
          ({ l with pinned := true } : Layer).record_pinnedPages
        rw [Layer.record_pinnedPages, hp, hone]
        rfl

theorem keepsStore_pinOff (id : LayerId) (s : State) : keepsStore s (pinOff id s).1 := by
  unfold pinOff
  split
  · exact .refl s
  · next l hl =>
    split_ifs with h1
    · refine .of_placed (by rw [answer, store_setPin hl, Store.placed_setPin]) fun hlegal => ?_
      rw [answer, store_setPin hl]
      have hone : s.store.pinnedPages id = l.map.length := by
        rw [Store.pinnedPages, State.store_layer_of hl, Option.elim_some, Layer.record_pinnedPages, if_pos h1]
      have hle : l.map.length ≤ s.store.pinnedTotal := by
        rw [hlegal.pinned.total, ← hone]
        exact Finset.single_le_sum (fun _ _ => Nat.zero_le _) (Finset.mem_univ id)
      refine hlegal.setPin (State.store_layer_of hl) (fun h => by cases h) ?_
        ((Nat.sub_le _ _).trans hlegal.pinned.le)
      have hzero : Record.pinnedPages { l.record with pinned := false } = 0 := rfl
      rw [Layer.record_pinnedPages, if_pos h1, hzero]
      exact Nat.sub_add_cancel hle
    · exact .refl s

theorem keepsStore_ownLayerPin (l x : Byte) (s : State) : keepsStore s (ownLayerPin l x s).1 := by
  unfold ownLayerPin
  split
  · apply keepsStore_outsideHold
    split
    · exact keepsStore_pinOn ..
    · exact keepsStore_pinOff ..
  · exact .refl s

theorem bounceCountArg_two {x : Byte} {n : Nat} (h : bounceCountArg x = some n) : 2 ≤ n := by
  unfold bounceCountArg at h
  split at h
  · next hb => cases h; exact hb.1
  · cases h

theorem keepsStore_ownBounce (lk : Link) (tag t j m : Byte) (s : State) :
    keepsStore s (ownBounce lk tag t j m s).1 := by
  unfold ownBounce
  split
  · next t n m _ hn _ =>
    have htwo := bounceCountArg_two hn
    apply keepsStore_outsideHold
    split
    · exact .refl s
    · split
      · next hi =>
        simp only [Bool.and_eq_true, decide_eq_true_eq] at hi
        split
        · next h =>
          obtain ⟨hplaced, hlegal⟩ := startBounce_store h hi.1
          exact ⟨fun hp => hplaced.trans hp, fun hl => hlegal hl (Nat.le_of_succ_le htwo)⟩
        · exact .refl s
      · refine keepsStore_waiting fun hl w hw => ?_
        obtain hw | hw := List.mem_append.1 hw
        · exact State.waiting_two hl hw
        · rw [List.mem_singleton.1 hw]
          exact htwo
  · exact .refl s

theorem ownBusLevel_store (b : Byte) (v : Word16) (s : State) : (ownBusLevel b v s).1.store = s.store := by
  unfold ownBusLevel; split <;> rfl

theorem ownMonitorSet_store (i : Byte) (a b c d : Word16) (s : State) : (ownMonitorSet i a b c d s).1.store = s.store := by
  unfold ownMonitorSet
  split
  · rfl
  · exact store_withInput rfl

theorem ownReturnSet_store (lk : Link) (r : Byte) (s : State) : (ownReturnSet lk r s).1.store = s.store := by
  unfold ownReturnSet; split <;> rfl

theorem ownQuietSet_store (lk : Link) (x : Byte) (s : State) : (ownQuietSet lk x s).1.store = s.store := by
  unfold ownQuietSet; split <;> rfl

theorem keepsStore_ownHold (lk : Link) (s : State) : keepsStore s (ownHold lk s).1 := by
  unfold ownHold
  split
  · exact keepsStore_answer (keepsStore_enterHold _ _ s)
  · exact keepsStore.refl s

theorem ownResume_store (s : State) : (ownResume s).1.store = s.store := by
  unfold ownResume; split_ifs <;> rfl

theorem ownSupplyLimits_store (t k : Word16) (s : State) : (ownSupplyLimits t k s).1.store = s.store := by
  unfold ownSupplyLimits
  extract_lets x y
  split <;> rfl

theorem ownReadTrack_store (t : Byte) (s : State) : (ownReadTrack t s).1.store = s.store := by
  unfold ownReadTrack; split <;> rfl

theorem ownReadLayer_store (l : Byte) (s : State) : (ownReadLayer l s).1.store = s.store := by
  unfold ownReadLayer; split <;> rfl

theorem ownReadStation_store (n : Byte) (s : State) : (ownReadStation n s).1.store = s.store := by
  unfold ownReadStation; split <;> rfl

theorem ownUnknown_store (body : List Byte) (o : Bool) (s : State) : (ownUnknown body o s).1.store = s.store := by
  unfold ownUnknown; split_ifs <;> rfl

theorem store_resetLinks (s : State) : (resetLinks s).store = s.store := by
  have hlink : ∀ (lk : Link) (f : LinkRec → LinkRec) (s : State), (mapLink lk f s).store = s.store := fun _ _ _ => rfl
  exact store_foldl (fun s lk => hlink lk _ s) allLinks s

/-- A hub with the reset lists, pool and engine and without passes holds the reset store. -/
theorem State.store_reset {u : State} (hl : u.lys = Lys.reset) (hg : u.pgp = Pgp.reset) (hb : u.bne = Bne.reset)
    (hp : ∀ i, u.pass i = none) : u.store = State.reset.store := by
  have hpass : (fun i => (u.pass i).map fun p => (p.layer, p.track)) =
      fun i => (State.reset.pass i).map fun p => (p.layer, p.track) := funext fun i => by rw [hp, reset_pass]
  have hl0 : State.reset.lys = Lys.reset := rfl
  have hg0 : State.reset.pgp = Pgp.reset := rfl
  have hb0 : State.reset.bne = Bne.reset := rfl
  simp only [State.store, hpass, State.track, State.layer, hl, hg, hb, hl0, hg0, hb0]

theorem resetInputs_pass (s : State) (i : Input) : (resetInputs s).pass i = none := by
  have hinput : ∀ r : InputRec, r.hubReset.pass = none := fun _ => rfl
  simp only [resetInputs, State.pass, Fin.getElem_fin, Vector.getElem_set]
  obtain ⟨n, hn⟩ := i
  interval_cases n <;> simp [hinput]

/-- Every block but the links at its reset values holds the reset store. -/
theorem resetBlocks_store (s : State) : (resetBlocks s).store = State.reset.store := by
  unfold resetBlocks
  rw [store_resetLinks]
  exact State.store_reset rfl rfl rfl (resetInputs_pass s)

/-- What makes the store the reset store keeps it. -/
theorem keepsStore_of_reset {s u : State} (h : u.store = State.reset.store) : keepsStore s u :=
  ⟨fun _ => h ▸ (State.pagesPlaced_iff _).1 reset_pagesPlaced, fun _ => h ▸ (State.storeLegal_iff _).1 reset_storeLegal⟩

theorem keepsStore_ownHubReset (lk : Link) (s : State) : keepsStore s (ownHubReset lk s).1 := by
  have h1 (x : State) : keepsStore x (emitRestarted lk x) := keepsStore_emit _ x
  have h2 (x : State) : keepsStore x (emitResetActive x) := keepsStore_emit _ x
  unfold ownHubReset
  extract_lets s1 first s2
  have hs1 : keepsStore s s1 := keepsStore_of_reset (resetBlocks_store _)
  clear_value s1
  have hs2 : keepsStore s s2 := hs1.trans (.of_eq rfl)
  clear_value s2
  split
  · apply keepsStore_answer
    exact keepsStore_ite ((hs2.trans (h1 _)).trans (h2 _)) ((hs2.trans (h2 _)).trans (h1 _))
  · exact keepsStore_answer (hs1.trans (h1 _))

/-! ## The readings -/

theorem keepsStore_takeReading (v : Nat) (c : Int) (o : HandOff) (s : State) : keepsStore s (takeReading v c o s) := by
  have hs (i : BlockInfo) (old : Supply) (x : State) : keepsStore x (emitSupply i old v x) :=
    keepsStore_ite (keepsStore.refl x) (.of_eq (store_emitAt _ _ x))
  have ht (i : BlockInfo) (old : Thermal) (x : State) : keepsStore x (emitThermal i old c x) :=
    keepsStore_ite (keepsStore.refl x) (.of_eq (store_emitAt _ _ x))
  unfold takeReading
  extract_lets late block info s1
  have h1 : keepsStore s s1 := by
    refine keepsStore.of_eq ?_
    simp only [s1, handTrigger]
    split <;> rfl
  exact keepsStore_ite ((h1.trans (ht _ _ _)).trans (hs _ _ _)) ((h1.trans (hs _ _ _)).trans (ht _ _ _))


end Sys2Proof.Machine
end
section
/-! PROOFS. Every command keeps the pages placed and the store in order: R51, and R29, R31, R64. -/

namespace Sys2Proof.Machine

/-! ## The boundary -/

theorem keepsStore_withMxe (s : State) (x : Mxe) : keepsStore s (s.withMxe x) := .of_eq rfl

theorem keepsStore_closeAccount (s : State) : keepsStore s (closeAccount s) :=
  keepsStore_ite (.refl s) (keepsStore_withTmc s _)

theorem keepsStore_noteClip (bus : Bus) (sums : Block) (s : State) : keepsStore s (noteClip bus sums s) := by
  unfold noteClip
  extract_lets frames count last send last' _ s1
  have h1 : keepsStore s s1 := keepsStore_withMxe ..
  exact keepsStore_ite (.refl s) (keepsStore_ite (h1.trans (keepsStore_emit _ _)) h1)

theorem keepsStore_noteShed (n c a : Nat) (s : State) : keepsStore s (noteShed n c a s) := by
  unfold noteShed
  extract_lets short _ s1
  have h1 : keepsStore s s1 := keepsStore_withMxe ..
  exact keepsStore_ite h1 (h1.trans (keepsStore_emit _ _))

theorem keepsStore_placeReturn (a b : Block) (s : State) (lk : Link) : keepsStore s (placeReturn a b s lk) := by
  unfold placeReturn
  extract_lets r c place
  have h (bus : Bus) (x : Block) : keepsStore s (place bus x) := .of_eq rfl
  refine keepsStore_ite ?_ (.refl s)
  split
  · exact .refl s
  · exact h _ _
  · exact h _ _

theorem keepsStore_mixBlock (resolved : List (Input × Block)) (s : State) : keepsStore s (mixBlock resolved s) := by
  have h (x : State) (n c a : Nat) (p q : Block) : keepsStore x (noteClip .b p (noteClip .a q (noteShed n c a x))) :=
    ((keepsStore_noteShed n c a x).trans (keepsStore_noteClip .a q _)).trans (keepsStore_noteClip .b p _)
  exact ((keepsStore_withMxe s _).trans (h _ _ _ _ _ _)).trans (keepsStore_foldl (keepsStore_placeReturn _ _) _ _)

theorem keepsStore_noteSpill (s : State) (i : Input) : keepsStore s (noteSpill s i) :=
  keepsStore_mapPass s fun p => by split <;> exact ⟨rfl, rfl⟩

theorem keepsStore_writeInput (f : Input → Block) (s : State) (i : Input) : keepsStore s (writeInput f s i) :=
  ((keepsStore_backfillCopy i s).trans (keepsStore_liveWrite _ _ _)).trans (keepsStore_endCutBackfill _ _)

theorem keepsStore_resolveInput (s : State) (i : Input) : keepsStore s (resolveInput s i) := by
  unfold resolveInput
  extract_lets r stamp n s1
  have h1 : keepsStore s s1 := keepsStore_withInput rfl
  split
  · exact keepsStore_withInput rfl
  · split
    · split
      · exact h1.trans (keepsStore_emit _ s1)
      · exact h1
    · exact keepsStore_withInput rfl

theorem keepsStore_pushRing (f : Input → Block) (s : State) (i : Input) : keepsStore s (pushRing f s i) :=
  keepsStore_withInput rfl

theorem keepsStore_finishBlock (order : List Input) (s : State) : keepsStore s (finishBlock order s) := by
  unfold finishBlock
  extract_lets resolved s1 s2
  have h1 : keepsStore s s1 := (keepsStore_foldl keepsStore_resolveInput _ s).trans
    (keepsStore_foldl keepsStore_noteSpill _ _)
  have h2 : keepsStore s s2 := (h1.trans (keepsStore_foldl (keepsStore_writeInput resolved) _ s1)).trans
    (keepsStore_foldl (keepsStore_pushRing resolved) _ _)
  exact (h2.trans (keepsStore_mixBlock _ s2)).trans (keepsStore_closeAccount _)

theorem keepsStore_nextBlock (s : State) : keepsStore s (nextBlock s) := by
  have h1 : keepsStore s ((syncHandOffs s).withSmn s.smn.advance) := .of_eq rfl
  have h2 := h1.trans (keepsStore_foldl (f := newBlock) (fun s i => keepsStore_withInput rfl) allInputs _)
  exact (h2.trans (keepsStore_withCyc _ _)).trans (keepsStore_emitMarks _)

theorem keepsStore_powerOn (s : State) : keepsStore s (powerOn s) := keepsStore_of_reset rfl

/-! ## The commands -/

theorem exec_keepsStore {c : Instr} {s t : State} (h : exec c s = .next t) : keepsStore s t := by
  have start := keepsStore_settleEnd s
  cases c with
  | cycleSet => cases h; exact keepsStore_serve _ _ _ _ _ s (keepsStore_ownCycleSet _ _)
  | tap => cases h; exact keepsStore_serve _ _ _ _ _ s (keepsStore_ownTap _)
  | transportStop => cases h; exact keepsStore_serve _ _ _ _ _ s (keepsStore_ownTransportStop _ _ _)
  | transportStart => cases h; exact keepsStore_serve _ _ _ _ _ s (keepsStore_ownTransportStart _)
  | songClear => cases h; exact keepsStore_serve _ _ _ _ _ s keepsStore_ownSongClear
  | passOpen => cases h; exact keepsStore_serve _ _ _ _ _ s (keepsStore_ownPassOpen _ _ _ _ _)
  | passClose => cases h; exact keepsStore_serve _ _ _ _ _ s (keepsStore_ownPassClose _ _ _ _)
  | layerUndo => cases h; exact keepsStore_serve _ _ _ _ _ s (keepsStore_ownOnTrack _ _ _ _ _)
  | layerRedo => cases h; exact keepsStore_serve _ _ _ _ _ s (keepsStore_ownOnTrack _ _ _ _ _)
  | trackMute => cases h; exact keepsStore_serve _ _ _ _ _ s (keepsStore_ownTrackMute _ _ _ _ _)
  | trackClear => cases h; exact keepsStore_serve _ _ _ _ _ s (keepsStore_ownOnTrack _ _ _ _ _)
  | trackErase => cases h; exact keepsStore_serve _ _ _ _ _ s (keepsStore_ownTrackErase _)
  | trackLevel => cases h; exact keepsStore_serve _ _ _ _ _ s fun x => .of_eq (ownTrackLevel_store _ _ x)
  | trackRoute => cases h; exact keepsStore_serve _ _ _ _ _ s fun x => .of_eq (ownTrackRoute_store _ _ x)
  | layerLevel => cases h; exact keepsStore_serve _ _ _ _ _ s fun x => .of_eq (ownLayerLevel_store _ _ x)
  | layerPin => cases h; exact keepsStore_serve _ _ _ _ _ s (keepsStore_ownLayerPin _ _)
  | bounce => cases h; exact keepsStore_serve _ _ _ _ _ s (keepsStore_ownBounce _ _ _ _ _)
  | busLevel => cases h; exact keepsStore_serve _ _ _ _ _ s fun x => .of_eq (ownBusLevel_store _ _ x)
  | monitorSet => cases h; exact keepsStore_serve _ _ _ _ _ s fun x => .of_eq (ownMonitorSet_store _ _ _ _ _ x)
  | graceSet => cases h; exact keepsStore_serve _ _ _ _ _ s fun x => .of_eq rfl
  | returnSet => cases h; exact keepsStore_serve _ _ _ _ _ s fun x => .of_eq (ownReturnSet_store _ _ x)
  | eventsSet => cases h; exact keepsStore_serve _ _ _ _ _ s fun x => .of_eq rfl
  | quietSet => cases h; exact keepsStore_serve _ _ _ _ _ s fun x => .of_eq (ownQuietSet_store _ _ x)
  | hold => cases h; exact keepsStore_serve _ _ _ _ _ s (keepsStore_ownHold _)
  | resume => cases h; exact keepsStore_serve _ _ _ _ _ s fun x => .of_eq (ownResume_store x)
  | supplyLimits => cases h; exact keepsStore_serve _ _ _ _ _ s fun x => .of_eq (ownSupplyLimits_store _ _ x)
  | readCycle => cases h; exact keepsStore_serve _ _ _ _ _ s fun x => .of_eq rfl
  | readTrack => cases h; exact keepsStore_serve _ _ _ _ _ s fun x => .of_eq (ownReadTrack_store _ x)
  | readLayer => cases h; exact keepsStore_serve _ _ _ _ _ s fun x => .of_eq (ownReadLayer_store _ x)
  | readPool => cases h; exact keepsStore_serve _ _ _ _ _ s fun x => .of_eq rfl
  | readStation => cases h; exact keepsStore_serve _ _ _ _ _ s fun x => .of_eq (ownReadStation_store _ x)
  | readHub => cases h; exact keepsStore_serve _ _ _ _ _ s fun x => .of_eq rfl
  | hubReset => cases h; exact keepsStore_serve _ _ _ _ _ s (keepsStore_ownHubReset _)
  | unknownRequest => cases h; exact keepsStore_serve _ _ _ _ _ s fun x => .of_eq (ownUnknown_store _ _ x)
  | blockBoundary order =>
    cases h
    exact keepsStore_ite (.of_eq rfl) (((keepsStore_settleAll s).trans (keepsStore_finishBlock order _)).trans
      (keepsStore_nextBlock _))
  | scheduledStart => cases h; exact keepsStore_ite (.refl s) (start.trans (keepsStore_scheduledStart _))
  | measureAutoClose => cases h; exact keepsStore_ite (.refl s) (start.trans (keepsStore_autoClose _))
  | openPassEighthBoundary => cases h; exact keepsStore_ite (.refl s) (start.trans (keepsStore_eighthBoundary _ _))
  | carriedClose => cases h; exact keepsStore_ite (.refl s) (start.trans (keepsStore_carriedClose _ _))
  | passReachesEnd => cases h; exact keepsStore_ite (.refl s) (keepsStore_reachEnd _ s)
  | spillBlend => cases h; exact keepsStore_ite (.refl s) (keepsStore_blendSpill _ s)
  | cutBackfillEnd =>
    cases h
    exact keepsStore_ite (.refl s) ((keepsStore_settleStart s).trans (keepsStore_finishCutBackfill _ _))
  | dueEntryExecute =>
    cases h
    exact keepsStore_ite (.refl s) ((start.trans (keepsStore_scheduledStart _)).trans
      (keepsStore_dueEntries _ _))
  | bounceStrokeComplete =>
    cases h
    exact keepsStore_ite (.refl s) (keepsStore_ite (start.trans (keepsStore_strokeStep _)) start)
  | bounceQueueAdvance =>
    cases h
    exact keepsStore_ite (.refl s) (start.trans (keepsStore_advanceQueue _))
  | holdEntry =>
    cases h
    exact keepsStore_ite (.refl s) ((keepsStore_settleStart s).trans (keepsStore_takeTrigger _))
  | drainComplete =>
    cases h
    exact keepsStore_ite (.refl s) ((keepsStore_ite (start.trans
      (keepsStore_strokes 4 _)) start).trans (keepsStore_drain _))
  | wakeEnd => cases h; exact keepsStore_ite (.refl s) (start.trans (keepsStore_wake _))
  | supplyReading =>
    cases h
    exact keepsStore_ite (.refl s) (keepsStore_ite (keepsStore_of_reset rfl) (keepsStore_takeReading ..))
  | brownoutEnd =>
    cases h
    exact keepsStore_ite (keepsStore_ite (keepsStore_powerOn s) (.of_eq rfl)) (.refl s)
  | powerOnReset => cases h; exact keepsStore_powerOn s
  | inputBlock => cases h; exact keepsStore_ite (.refl s) (keepsStore_receiveHub ..)
  | requestPacket => cases h; exact keepsStore_ite (.refl s) (keepsStore_receiveHub ..)
  | unknownPacket => cases h; exact keepsStore_ite (.refl s) (keepsStore_receiveHub ..)
  | hubPacketFaultEnd =>
    cases h
    exact keepsStore_ite (.refl s) (keepsStore_receive _ _ _ (keepsStore_ite
      (keepsStore_discardFaulted ..) (keepsStore.refl s)))
  | linkError lk cause char =>
    cases h
    refine keepsStore_ite (.refl s) ?_
    dsimp only
    split
    · exact keepsStore_ite (keepsStore.refl s) (keepsStore_causedError ..)
    · split
      · exact keepsStore_joinDataError ..
      · exact keepsStore_mapLink ..
      · exact keepsStore.refl s
      · exact keepsStore.refl s
  | linkSilence => cases h; exact keepsStore_ite (.refl s) (keepsStore_causedError ..)
  | recoverEnd => cases h; exact keepsStore_ite (.refl s) (keepsStore_ite (keepsStore_mapLink ..) (keepsStore.refl s))
  | listenFillCount => cases h; exact keepsStore_ite (.refl s) (keepsStore_ite (keepsStore_mapLink ..) (keepsStore.refl s))
  | freshJoin => cases h; exact keepsStore_ite (.refl s) (keepsStore_ite (keepsStore_join ..) (keepsStore.refl s))
  | forwardRoute =>
    cases h
    exact keepsStore_ite (.refl s) (keepsStore_receive _ _ _ (keepsStore_ite
      (keepsStore_beginPacket ..) (keepsStore.refl s)))
  | broadcastRoute =>
    cases h
    exact keepsStore_ite (.refl s) (keepsStore_receive _ _ _ (keepsStore_ite
      (keepsStore_routeBroadcast ..) (keepsStore.refl s)))
  | forwardEnd => cases h; exact keepsStore_ite (.refl s) (keepsStore_receiveEnd _ _ _ (keepsStore_packetEnd ..))
  | forwardFaultEnd => cases h; exact keepsStore_ite (.refl s) (keepsStore_receiveEnd _ _ _ (keepsStore_packetFault ..))
  | forwardTooLong =>
    cases h
    refine keepsStore_ite (.refl s) (keepsStore_receive _ _ _ ?_)
    unfold closeTooLong
    split
    · exact keepsStore_ite (keepsStore_tooLong ..) (keepsStore.refl s)
    · exact keepsStore.refl s
  | transmitStart =>
    cases h
    exact keepsStore_ite (.refl s) (keepsStore_ite (keepsStore_mapLink ..) (keepsStore_startPacket ..))
  | transmitEnd => cases h; exact keepsStore_ite (.refl s) (keepsStore_endPacket ..)
  | forwardDataByte => cases h; exact keepsStore_ite (.refl s) (keepsStore_receive _ _ _ (keepsStore_dataByte ..))

/-! ## A step -/

theorem step_keepsStore {s t : State} (h : step s = .next t) : keepsStore s t := by
  unfold step at h
  split at h
  · cases h
    exact .refl s
  · next c rest _ =>
    have hrest : keepsStore s { s with pending := rest } := .of_eq rfl
    exact hrest.trans (exec_keepsStore h)

/-- Settles O5: the store keeps its pages placed and its order through every command, the holders' agreement with it. -/
theorem stepKeepsPagesPlaced : Obligations.StepKeepsPagesPlaced := by
  unfold Obligations.StepKeepsPagesPlaced
  refine ⟨fun s t hs h => ?_, fun s t hs h => ?_⟩
  · exact (State.pagesPlaced_iff t).2 ((step_keepsStore h).placed ((State.pagesPlaced_iff s).1 hs))
  · exact (State.storeLegal_iff t).2 ((step_keepsStore h).legal ((State.storeLegal_iff s).1 hs))

end Sys2Proof.Machine
end

section
/-! PROOFS. TRACK_CLEAR: the whole stack parked, top first, with consecutive park stamps (R41, R31). -/

namespace Sys2Proof.Machine

/-! ## Several parks -/

/-- Layer `id` as it is parked with stamp `n` (R31). -/
def Layer.parkedAt (l : Layer) (n : Nat) : Layer := { l with state := .parked, stamp := some n }

/-- `u` comes of `s` by the layers of a list parked on track `t`, one after another. -/
structure Parked (t : TrackId) (ids : List LayerId) (s u : State) : Prop where
  only : u = { s with lys := u.lys }
  track : u.track t =
    { s.track t with stack := (s.track t).stack.filter (· ∉ ids), redo := (s.track t).redo ++ ids }
  tracks : ∀ v, v ≠ t → u.track v = s.track v
  layer : ∀ k (h : k < ids.length), u.layer ids[k] = (s.layer ids[k]).map fun l => l.parkedAt (s.lys.parks + k)
  layers : ∀ id, id ∉ ids → u.layer id = s.layer id
  serials : u.lys.serials = s.lys.serials
  parks : u.lys.parks = s.lys.parks + ids.length

theorem Parked.refl (t : TrackId) (s : State) : Parked t [] s s :=
  ⟨rfl, by simp, fun _ _ => rfl, fun k h => absurd h (Nat.not_lt_zero k), fun _ _ => rfl, rfl, rfl⟩

/-- The state with layer `id` of track `l.track` moved to the redo list, before the park counter rises. -/
def movedToRedo (s : State) (id : LayerId) (l : Layer) : State :=
  (s.withTrack l.track ((s.track l.track).parking id)).withLayer id (some (l.parkedAt s.lys.parks))

theorem parkLayer_of_some {s : State} {id : LayerId} {l : Layer} (hl : s.layer id = some l)
    (hp : s.lys.parks < 4294967295) :
    parkLayer id s = { movedToRedo s id l with lys.parks := (movedToRedo s id l).lys.parks + 1 } := by
  rw [parkLayer_eq, if_neg (Nat.ne_of_lt hp)]
  simp only [parkNext, hl]
  rfl

/-- One layer is parked, the park counter not being used up. -/
theorem parkLayer_parked_one {s : State} {t : TrackId} {id : LayerId} {l : Layer} (hl : s.layer id = some l)
    (ht : l.track = t) (hp : s.lys.parks < 4294967295) : Parked t [id] s (parkLayer id s) := by
  subst ht
  have htrack : ∀ v, (movedToRedo s id l).track v = if v = l.track then (s.track l.track).parking id else s.track v :=
    fun v => State.withTrack_track s l.track v _
  have hlayer : ∀ k, (movedToRedo s id l).layer k = if k = id then some (l.parkedAt s.lys.parks) else s.layer k :=
    fun k => State.withLayer_layer _ _ _ _
  rw [parkLayer_of_some hl hp]
  refine ⟨rfl, (htrack l.track).trans ?_, fun v hv => (htrack v).trans (if_neg hv), fun k hk => ?_,
    fun k hk => (hlayer k).trans (if_neg ?_), rfl, rfl⟩
  · simp [Track.parking]
  · obtain rfl : k = 0 := by simpa using hk
    refine (hlayer id).trans ?_
    rw [if_pos rfl, List.getElem_cons_zero, hl]
    rfl
  · simpa using hk

theorem Parked.cons {t : TrackId} {id : LayerId} {ids : List LayerId} {s u v : State} (h : Parked t [id] s u)
    (k : Parked t ids u v) (hn : id ∉ ids) : Parked t (id :: ids) s v := by
  refine ⟨k.only.trans ?_, ?_, fun w hw => (k.tracks w hw).trans (h.tracks w hw), fun n hlt => ?_, fun x hx => ?_,
    k.serials.trans h.serials, ?_⟩
  · rw [h.only]
  · rw [k.track, h.track]
    simp only [List.filter_filter, List.append_assoc, List.singleton_append]
    congr 2
    funext x
    simp only [List.mem_cons, List.not_mem_nil, or_false, not_or, Bool.decide_and]
    exact Bool.and_comm _ _
  · cases n with
    | zero =>
      have h0 := h.layer 0 (Nat.zero_lt_one)
      simp only [List.getElem_cons_zero] at h0 ⊢
      rw [k.layers id hn, h0]
    | succ n =>
      have hlt : n < ids.length := Nat.lt_of_succ_lt_succ hlt
      have hne : ids[n] ∉ [id] := fun hm => hn ((List.mem_singleton.1 hm) ▸ List.getElem_mem hlt)
      simp only [List.getElem_cons_succ]
      rw [k.layer n hlt, h.layers _ hne, h.parks]
      simp only [List.length_singleton, Nat.add_assoc, Nat.add_comm 1 n]
  · rw [k.layers x fun hm => hx (List.mem_cons_of_mem _ hm), h.layers x fun hm => hx (by simpa using Or.inl (by simpa using hm))]
  · simp only [k.parks, h.parks, List.length_cons, List.length_nil]
    omega

/-- Layers of one track parked one after another, the park counter lasting for them all. -/
theorem parkLayers_parked {t : TrackId} : ∀ {ids : List LayerId} {s : State}, ids.Nodup →
    (∀ id ∈ ids, ∃ l, s.layer id = some l ∧ l.track = t) → s.lys.parks + ids.length ≤ 4294967295 →
    Parked t ids s (ids.foldl (fun s id => parkLayer id s) s)
  | [], s, _, _, _ => .refl t s
  | id :: ids, s, hnd, hl, hp => by
    obtain ⟨hn, hnd⟩ := List.nodup_cons.1 hnd
    obtain ⟨l, hid, ht⟩ := hl id List.mem_cons_self
    rw [List.length_cons] at hp
    have h1 := parkLayer_parked_one hid ht (by omega)
    refine h1.cons (parkLayers_parked hnd (fun k hk => ?_) ?_) hn
    · rw [h1.layers k fun hm => hn ((List.mem_singleton.1 hm) ▸ hk)]
      exact hl k (List.mem_cons_of_mem _ hk)
    · rw [h1.parks, List.length_singleton]
      omega

/-! ## A track without a pass and without the bounce -/

theorem State.passOn_false {s : State} {t : TrackId} :
    s.passOn t = false ↔ ∀ i p, s.pass i = some p → p.track ≠ t := by
  unfold State.passOn
  rw [Bool.eq_false_iff, ne_eq, List.any_eq_true]
  constructor
  · intro h i p hp ht
    exact h ⟨i, mem_allInputs i, by rw [hp]; exact decide_eq_true ht⟩
  · rintro h ⟨i, -, hi⟩
    obtain ⟨p, hp, ht⟩ := (Option.any_eq_true _ _).1 hi
    exact h i p hp (of_decide_eq_true ht)

/-- Where a track has neither a pass nor the active bounce, there is nothing to abort (R41, R42). -/
theorem abortOn_of_quiet {s : State} {t : TrackId} (hp : s.passOn t = false)
    (hb : ∀ b, s.bne.active = some b → b.track ≠ t) (cause : BounceAbort) (n : Nat) :
    abortBounceOn t cause (abortTrack t n s) = s := by
  have hnew : s.newestPass t = none := (newestPass_none s t).2 (State.passOn_false.1 hp)
  have habort : abortTrack t n s = s := by
    cases n with
    | zero => rfl
    | succ n => simp only [abortTrack, hnew]
  rw [habort]
  refine if_neg fun h => ?_
  obtain ⟨b, hact, ht⟩ := (Option.any_eq_true _ _).1 h
  exact hb b hact (of_decide_eq_true ht)

theorem State.liveOf_eq_self {s : State} {ids : List LayerId}
    (h : ∀ id ∈ ids, ∃ l, s.layer id = some l ∧ l.state = .live) : s.liveOf ids = ids :=
  List.filter_eq_self.2 fun id hid => by
    obtain ⟨l, hl, hst⟩ := h id hid
    rw [hl]
    exact decide_eq_true hst

/-! ## TRACK_CLEAR -/

theorem execClear_of_empty {s : State} {t : TrackId} (hs : (s.track t).stack = []) (hp : s.passOn t = false) :
    execClear t s = (s, .nothing) := by
  unfold execClear
  extract_lets live pins s1 redo s2
  exact if_pos (by simp [hs, hp])

theorem execClear_of_full {s : State} {t : TrackId} (hs : (s.track t).stack ≠ [])
    (h : 12 < (s.liveOf (s.track t).stack).length + (s.havingPin true (s.track t).redo).length) :
    execClear t s = (s, .redoFull) := by
  unfold execClear
  extract_lets live pins s1 redo s2
  rw [if_neg (by simp [hs])]
  exact if_pos h

/-- A track with room, without a pass and without a bounce: the stack is parked and nothing else happens. -/
theorem execClear_of_room {s : State} {t : TrackId} (hs : (s.track t).stack ≠ []) (hp : s.passOn t = false)
    (hb : ∀ b, s.bne.active = some b → b.track ≠ t)
    (hl : ∀ id ∈ (s.track t).stack, ∃ l, s.layer id = some l ∧ l.state = .live)
    (hroom : (s.track t).stack.length + (s.track t).redo.length ≤ 12) :
    execClear t s = (parkTopFirst (s.track t).stack s, .done) := by
  unfold execClear
  extract_lets live pins s1 redo s2
  have h1 : s1 = s := abortOn_of_quiet hp hb .clear 4
  have hlive : live = (s.track t).stack.length := congrArg List.length (State.liveOf_eq_self hl)
  have hpins : pins ≤ (s.track t).redo.length := List.length_filter_le _ _
  have h2 : s2 = s := by
    have hredo : redo = (s.track t).redo := by simp only [redo, h1]
    have hzero : redo.length - (12 - live) = 0 := by rw [hredo]; omega
    simp only [s2, hzero, List.take_zero]
    exact h1
  rw [if_neg (by simp [hs]), if_neg (by omega), h2]

/-- Settles O29: the three outcomes of `execClear`, the parks by `parkLayers_parked`. -/
theorem clearParksTheStack : Obligations.ClearParksTheStack := by
  intro s lk tag track quantize mode t h hold ht hq hn hm result tr
  have hacc : Accepted s lk tag (.trackClear lk tag track quantize) (.trackClear t) mode :=
    ⟨h, hold, by simp only [quantizedOf, ht, hq], hn, rfl⟩
  have htime : s.timing lk (.trackClear t) mode = .atOnce 0 := State.timing_onTrack rfl (fun _ _ e => by cases e) hm
  have hexec : ∀ {f : State → State} {rc : ReplyCode}, execClear t (taken lk true s) = (f (taken lk true s), rc) →
      result = .next (s.served lk 0x0B tag rc f) := fun hx => exec_atOnce (mode := mode) hacc htime hx
  obtain ⟨xtrack, xlayer, -, xpass⟩ := taken_reads lk true s
  obtain ⟨-, xlys, -, -, -, -, xbne, -⟩ := taken_fields lk true s
  have xpassOn : (taken lk true s).passOn t = s.passOn t := by simp only [State.passOn, xpass]
  refine ⟨fun hs hp => ?_, fun hs hfull => ?_, fun hs hp hb hnd hl hroom hparks => ?_⟩
  · exact hexec (f := id) (execClear_of_empty (by rw [xtrack]; exact hs) (xpassOn.trans hp))
  · refine hexec (f := id) (execClear_of_full (by rw [xtrack]; exact hs) ?_)
    simpa only [State.liveOf, State.havingPin, xtrack, xlayer] using hfull
  · have hroom' : execClear t (taken lk true s) = (parkTopFirst tr.stack (taken lk true s), .done) := by
      have hx := execClear_of_room (s := taken lk true s) (t := t) (by rw [xtrack]; exact hs) (xpassOn.trans hp)
        (by rw [xbne]; exact hb) (fun id hid => ?_) (by rw [xtrack]; exact hroom)
      · rw [hx, xtrack]
      · rw [xtrack] at hid
        obtain ⟨l, hl, hst, -⟩ := hl id hid
        exact ⟨l, (xlayer id).trans hl, hst⟩
    have hpark : Parked t tr.stack.reverse (taken lk true s) (parkTopFirst tr.stack (taken lk true s)) := by
      refine parkLayers_parked (List.nodup_reverse.2 hnd) (fun id hid => ?_) ?_
      · obtain ⟨l, hl, -, hlt⟩ := hl id (List.mem_reverse.1 hid)
        exact ⟨l, (xlayer id).trans hl, hlt⟩
      · rw [xlys, List.length_reverse]
        omega
    have hserved := hexec (f := fun x => parkTopFirst tr.stack x) hroom'
    generalize hx : parkTopFirst tr.stack (taken lk true s) = x at hpark
    obtain ⟨-, ulys, -⟩ := pushReply_fields lk (s.firstReplyOf 0x0B tag .done .none) x
    have hruns : x.linkRuns lk = true := by
      have hlink : x.linkRuns lk = (taken lk true s).linkRuns lk := by rw [hpark.only]; rfl
      exact hlink.trans ((taken_linkRuns lk lk true s).trans (State.ready_linkRuns h))
    have hreply := served_getLast (s := s) (lk := lk) (code := 0x0B) (tag := tag) (rc := .done)
      (f := fun x => parkTopFirst tr.stack x) (p := .none) (by rw [hx]; exact hruns)
    have hu : s.served lk 0x0B tag .done (fun x => parkTopFirst tr.stack x) =
        pushReply lk (s.firstReplyOf 0x0B tag .done .none) x := by rw [State.served, hx]
    rw [hu] at hserved hreply
    refine ⟨_, hserved, ?_, ?_, fun v hv => ?_, fun k hk => ?_, fun id hid => ?_, ?_, ?_, _, hreply, rfl, rfl, rfl⟩
    · rw [pushReply_inner, ulys, hpark.only]
      exact congrArg (fun y : State => { y with lys := x.lys }) (taken_inner lk true s)
    · rw [State.track_congr ulys, hpark.track, xtrack]
      have hnil : tr.stack.filter (· ∉ tr.stack.reverse) = [] := by simp
      rw [hnil]
    · rw [State.track_congr ulys, hpark.tracks v hv, xtrack]
    · rw [State.layer_congr ulys, hpark.layer k hk, xlayer, xlys]
      rfl
    · rw [State.layer_congr ulys, hpark.layers id fun hm => hid (List.mem_reverse.1 hm), xlayer]
    · rw [ulys, hpark.serials, xlys]
    · rw [ulys, hpark.parks, xlys, List.length_reverse]

end Sys2Proof.Machine
end

section
/-! PROOFS. TRACK_ERASE: the layers freed in order, the track EMPTY, the low mark tested once (R42, R30, R53, R24, R65). -/

namespace Sys2Proof.Machine

/-! ## A track's layers freed -/

theorem emptyTest_of_held {s : State} {t : TrackId} {k : LayerId}
    (h : k ∈ (s.track t).stack ∨ k ∈ (s.track t).redo) : emptyTest t s = s := by
  unfold emptyTest
  refine if_neg fun hc => ?_
  simp only [Bool.and_eq_true, List.isEmpty_iff] at hc
  obtain h | h := h
  · rw [hc.1.1.2] at h
    cases h
  · rw [hc.1.2] at h
    cases h

/-- Layers freed one after another are dropped, and their track is tested once the last of them is gone (R24, R30). -/
theorem freeLayer_foldl {t : TrackId} : ∀ {ids : List LayerId} {s : State}, ids ≠ [] → ids.Nodup →
    (∀ id ∈ ids, ∃ l, s.layer id = some l ∧ l.track = t) →
    (∀ id ∈ ids, id ∈ (s.track t).stack ∨ id ∈ (s.track t).redo) →
    ids.foldl (fun s id => freeLayer id s) s = emptyTest t (ids.foldl (fun s id => dropLayer id s) s)
  | [], _, hne, _, _, _ => absurd rfl hne
  | [id], s, _, _, hl, _ => by
    obtain ⟨l, hid, ht⟩ := hl id List.mem_cons_self
    simp only [List.foldl_cons, List.foldl_nil, freeLayer, hid, ht]
  | id :: k :: ids, s, _, hnd, hl, hm => by
    obtain ⟨hn, hnd⟩ := List.nodup_cons.1 hnd
    obtain ⟨l, hid, ht⟩ := hl id List.mem_cons_self
    have htrack : (dropLayer id s).track t = (s.track t).without id := by rw [dropLayer_track hid, if_pos ht.symm]
    have hmem : ∀ j ∈ k :: ids, j ∈ ((dropLayer id s).track t).stack ∨ j ∈ ((dropLayer id s).track t).redo := by
      intro j hj
      have hne : j ≠ id := fun e => hn (e ▸ hj)
      rw [htrack]
      exact (hm j (List.mem_cons_of_mem _ hj)).imp (fun h => List.mem_filter.2 ⟨h, decide_eq_true hne⟩)
        fun h => List.mem_filter.2 ⟨h, decide_eq_true hne⟩
    have hfree : freeLayer id s = dropLayer id s := by
      simp only [freeLayer, hid, ht]
      exact emptyTest_of_held (hmem k List.mem_cons_self)
    rw [List.foldl_cons, List.foldl_cons (b := s) (f := fun s id => dropLayer id s), hfree]
    refine freeLayer_foldl (List.cons_ne_nil _ _) hnd (fun j hj => ?_) hmem
    have hne : j ≠ id := fun e => hn (e ▸ hj)
    rw [dropLayer_layer, if_neg hne]
    exact hl j (List.mem_cons_of_mem _ hj)

/-- What the freeing of unpinned layers of one track leaves beside what `Freed` says. -/
structure FreedBeside (t : TrackId) (s u : State) : Prop where
  tracks : ∀ v, v ≠ t → u.track v = s.track v
  parks : u.lys.parks = s.lys.parks
  pgp : u.pgp = { s.pgp with free := u.pgp.free }
  pse : u.pse = s.pse
  cyc : u.cyc = s.cyc
  slk : u.slk = s.slk
  rqu : u.rqu = s.rqu

theorem dropLayers_beside {t : TrackId} : ∀ {ids : List LayerId} {s : State}, ids.Nodup →
    (∀ id ∈ ids, ∃ l, s.layer id = some l ∧ l.pinned = false ∧ l.track = t) →
    FreedBeside t s (ids.foldl (fun s id => dropLayer id s) s)
  | [], _, _, _ => ⟨fun _ _ => rfl, rfl, rfl, rfl, rfl, rfl, rfl⟩
  | id :: ids, s, hnd, hl => by
    obtain ⟨hn, hnd⟩ := List.nodup_cons.1 hnd
    obtain ⟨l, hid, hp, ht⟩ := hl id List.mem_cons_self
    have h := dropLayers_beside (t := t) (s := dropLayer id s) hnd fun k hk => by
      have hne : k ≠ id := fun e => hn (e ▸ hk)
      rw [dropLayer_layer, if_neg hne]
      exact hl k (List.mem_cons_of_mem _ hk)
    rw [List.foldl_cons]
    have heq := dropLayer_eq hid
    refine ⟨fun v hv => ?_, h.parks.trans (dropLayer_counters id s).2, ?_, h.pse.trans (by rw [heq]; rfl),
      h.cyc.trans (by rw [heq]; rfl), h.slk.trans (by rw [heq]; rfl), h.rqu.trans (by rw [heq]; rfl)⟩
    · rw [h.tracks v hv, dropLayer_track hid, if_neg (ht ▸ hv)]
    · rw [h.pgp, dropLayer_pgp hid, hp]
      rfl

/-- The pool after the low-mark test (R65). -/
theorem lowMark_heard {s : State} {j : Link} {n : Nat} (hl : (lowMark s).pgp.low ≠ s.pgp.low)
    (hh : s.hears j .poolLow n = true) : ∃ e ∈ ((lowMark s).link j).events, e.info = s.info ∧
      e.body = .poolLow (lowMark s).pgp.low (lowMark s).pgp.free.length := by
  rw [lowMark_pgp] at hl ⊢
  have hlow : lowMark s = _ := if_neg hl
  have hevents := emitAt_heard (s := s.withPgp
    { s.pgp with low := lowFlagAfter s.pgp.low s.freeCount, lowest := min s.pgp.lowest s.freeCount })
    (k := .poolLow) (n := n) hh s.info (.poolLow (lowFlagAfter s.pgp.low s.freeCount) s.freeCount) rfl rfl rfl
  refine ⟨⟨.poolLow (lowFlagAfter s.pgp.low s.freeCount) s.freeCount, s.info, (s.station j).missed, false⟩, ?_, rfl, rfl⟩
  rw [hlow]
  exact hevents ▸ List.mem_append_right _ List.mem_cons_self

/-- Without a change of the flag the low-mark test sends nothing. -/
theorem lowMark_silent {s : State} (hl : (lowMark s).pgp.low = s.pgp.low) (j : Link) :
    ((lowMark s).link j).events = (s.link j).events := by
  rw [lowMark_pgp] at hl
  have hstill : lowMark s =
      s.withPgp { s.pgp with low := lowFlagAfter s.pgp.low s.freeCount, lowest := min s.pgp.lowest s.freeCount } := by
    unfold lowMark
    exact if_pos hl
  rw [hstill]
  rfl

/-! ## TRACK_ERASE -/

theorem State.havingPin_unpinned {s : State} {ids : List LayerId}
    (h : ∀ id ∈ ids, ∃ l, s.layer id = some l ∧ l.pinned = false) :
    s.havingPin false ids = ids ∧ s.havingPin true ids = [] := by
  constructor
  · refine List.filter_eq_self.2 fun id hid => ?_
    obtain ⟨l, hl, hp⟩ := h id hid
    rw [hl]
    exact decide_eq_true hp
  · refine List.filter_eq_nil_iff.2 fun id hid => ?_
    obtain ⟨l, hl, hp⟩ := h id hid
    rw [hl]
    simp [hp]

theorem execErase_of_empty {s : State} {t : TrackId} (h : (s.track t).state = .empty) :
    execErase t s = (s, .nothing) := by
  unfold execErase
  extract_lets tr s1 s2
  exact if_pos h

/-- The state of a LOOPING track's erase (R42) before the low-mark test. -/
def erased (t : TrackId) (s : State) : State :=
  emptyTest t (((s.track t).stack ++ (s.track t).redo).foldl (fun s id => dropLayer id s) s)

/-- A track without a pass, a bounce or a pin: its layers are freed and the low mark tested. -/
theorem execErase_of_unpinned {s : State} {t : TrackId} (hst : (s.track t).state ≠ .empty) (hp : s.passOn t = false)
    (hb : ∀ b, s.bne.active = some b → b.track ≠ t) (hne : (s.track t).stack ++ (s.track t).redo ≠ [])
    (hnd : ((s.track t).stack ++ (s.track t).redo).Nodup)
    (hl : ∀ id ∈ (s.track t).stack ++ (s.track t).redo, ∃ l, s.layer id = some l ∧ l.pinned = false ∧ l.track = t) :
    execErase t s = (parkTopFirst ((lowMark (erased t s)).track t).stack (lowMark (erased t s)), .ok) := by
  have hpin : ∀ ids, (∀ id ∈ ids, id ∈ (s.track t).stack ++ (s.track t).redo) →
      s.havingPin false ids = ids ∧ s.havingPin true ids = [] := fun ids hsub =>
    State.havingPin_unpinned fun id hid => by
      obtain ⟨l, h1, h2, -⟩ := hl id (hsub id hid)
      exact ⟨l, h1, h2⟩
  obtain ⟨hs1, hs2⟩ := hpin (s.track t).stack fun id hid => List.mem_append_left _ hid
  obtain ⟨hr1, hr2⟩ := hpin (s.track t).redo fun id hid => List.mem_append_right _ hid
  have hfree : freeLayers ((s.track t).stack ++ (s.track t).redo) s = lowMark (erased t s) := by
    unfold freeLayers
    rw [if_neg (by simpa only [List.isEmpty_iff] using hne), erased, freeLayer_foldl hne hnd (fun id hid => ?_)
      fun id hid => List.mem_append.1 hid]
    obtain ⟨l, h1, -, h3⟩ := hl id hid
    exact ⟨l, h1, h3⟩
  unfold execErase
  simp only [abortOn_of_quiet hp hb .erase 4, hs1, hs2, hr1, hr2, hfree]
  rw [if_neg hst, if_neg (by simp)]

/-- The erased track (R24, R42). -/
theorem erased_track {s : State} {t : TrackId} (hst : (s.track t).state = .looping) (hp : s.passOn t = false)
    (hnd : ((s.track t).stack ++ (s.track t).redo).Nodup)
    (hl : ∀ id ∈ (s.track t).stack ++ (s.track t).redo, ∃ l, s.layer id = some l ∧ l.pinned = false ∧ l.track = t) :
    erased t s = (((s.track t).stack ++ (s.track t).redo).foldl (fun s id => dropLayer id s) s).withTrack t
      { s.track t with state := .empty, mult := none, anchor := none, stack := [], redo := [] } := by
  have hf := dropLayers_freed (t := t) hnd fun id hid => by
    obtain ⟨l, h1, -, h3⟩ := hl id hid
    exact ⟨l, h1, h3⟩
  have hb := dropLayers_beside hnd hl
  rw [erased]
  generalize ((s.track t).stack ++ (s.track t).redo).foldl (fun s id => dropLayer id s) s = x at hf hb ⊢
  have hstack : (s.track t).stack.filter (· ∉ (s.track t).stack ++ (s.track t).redo) = [] :=
    List.filter_eq_nil_iff.2 fun id hid => by simp [hid]
  have hredo : (s.track t).redo.filter (· ∉ (s.track t).stack ++ (s.track t).redo) = [] :=
    List.filter_eq_nil_iff.2 fun id hid => by simp [hid]
  have htrack := hf.track
  rw [hstack, hredo] at htrack
  have hpass : x.passOn t = false := by
    have hpass : ∀ i, x.pass i = s.pass i := fun i => by simp only [State.pass, hb.pse]
    simpa only [State.passOn, hpass] using hp
  unfold emptyTest
  simp only [htrack, hst, hpass]
  rfl

/-- What an erase leaves (R42, R65). -/
structure Erased (t : TrackId) (ids : List LayerId) (s u : State) : Prop where
  only : onlyStore s u
  track : u.track t = { s.track t with state := .empty, mult := none, anchor := none, stack := [], redo := [] }
  tracks : ∀ v, v ≠ t → u.track v = s.track v
  layer : ∀ k, u.layer k = if k ∈ ids then none else s.layer k
  serials : u.lys.serials = s.lys.serials
  parks : u.lys.parks = s.lys.parks
  free : u.pgp.free = s.pgp.free ++ ids.flatMap s.pagesOf
  low : u.pgp.low = lowFlagAfter s.pgp.low u.pgp.free.length
  pgp : u.pgp = { s.pgp with free := u.pgp.free, low := u.pgp.low, lowest := min s.pgp.lowest u.pgp.free.length }
  heard : u.pgp.low ≠ s.pgp.low → ∀ j n, s.hears j .poolLow n = true → ∃ e ∈ (u.link j).events, e.info = s.info ∧
    e.body = .poolLow u.pgp.low u.pgp.free.length
  silent : u.pgp.low = s.pgp.low → ∀ j, (u.link j).events = (s.link j).events

theorem lowMark_erased {s : State} {t : TrackId} (hst : (s.track t).state = .looping) (hp : s.passOn t = false)
    (hnd : ((s.track t).stack ++ (s.track t).redo).Nodup)
    (hl : ∀ id ∈ (s.track t).stack ++ (s.track t).redo, ∃ l, s.layer id = some l ∧ l.pinned = false ∧ l.track = t) :
    Erased t ((s.track t).stack ++ (s.track t).redo) s (lowMark (erased t s)) := by
  have hf := dropLayers_freed (t := t) hnd fun id hid => by
    obtain ⟨l, h1, -, h3⟩ := hl id hid
    exact ⟨l, h1, h3⟩
  have hb := dropLayers_beside hnd hl
  have honly := onlyStore_foldl _ (fun s id => onlyStore_dropLayer id s) ((s.track t).stack ++ (s.track t).redo) s
  rw [erased_track hst hp hnd hl]
  generalize (s.track t).stack ++ (s.track t).redo = ids at *
  generalize ids.foldl (fun s id => dropLayer id s) s = x at *
  set y := x.withTrack t { s.track t with state := .empty, mult := none, anchor := none, stack := [], redo := [] } with hy
  have hhears : ∀ j n, y.hears j .poolLow n = s.hears j .poolLow n := fun j n => by
    have hslk : y.slk = s.slk := hb.slk
    have hrqu : y.rqu = s.rqu := hb.rqu
    simp only [State.hears, State.linkRuns, State.link, State.station, hslk, hrqu]
    rfl
  have hpgp : (lowMark y).pgp =
      { x.pgp with low := lowFlagAfter x.pgp.low x.freeCount, lowest := min x.pgp.lowest x.freeCount } := lowMark_pgp y
  have hlow : x.pgp.low = s.pgp.low := by rw [hb.pgp]
  refine ⟨(honly.trans (onlyStore_withTrack _ _ _)).trans (onlyStore_lowMark _), ?_, fun v hv => ?_, fun k => ?_,
    (congrArg Lys.serials (lowMark_lys y)).trans hf.serials, (congrArg Lys.parks (lowMark_lys y)).trans hb.parks, ?_, ?_,
    ?_, fun hne j n hh => ?_, fun he j => ?_⟩
  · rw [State.track_congr (lowMark_lys y), hy, State.withTrack_track, if_pos rfl]
  · rw [State.track_congr (lowMark_lys y), hy, State.withTrack_track, if_neg hv, hb.tracks v hv]
  · exact (State.layer_congr (lowMark_lys y) k).trans (hf.layer k)
  · rw [hpgp]
    exact hf.free
  · rw [hpgp, ← hlow]
    rfl
  · rw [hpgp, hb.pgp]
    rfl
  · obtain ⟨e, he, hinfo, hbody⟩ := lowMark_heard (s := y) (j := j) (n := n) (fun e => hne (e.trans hlow))
      ((hhears j n).trans hh)
    exact ⟨e, he, hinfo.trans (State.info_congr hb.cyc), hbody⟩
  · rw [lowMark_silent (s := y) (he.trans hlow.symm) j]
    exact congrArg (fun l : Slk => l.links[j].events) hb.slk

/-- Settles O30: the erase by `dropLayers_freed` and `dropLayers_beside`, its one low-mark test by `lowMark_pgp`. -/
theorem eraseFreesTheTrack : Obligations.EraseFreesTheTrack := by
  intro s lk tag track t h hold ht tr
  obtain ⟨xtrack, xlayer, -, xpass⟩ := taken_reads lk true s
  obtain ⟨xcyc, xlys, xpgp, -, -, -, xbne, -⟩ := taken_fields lk true s
  have hx : (taken lk true s).inHold = false := (taken_inHold lk true s).trans hold
  have hown : ∀ x : State, ownTrackErase track x = outsideHold x fun x => answer (execErase t x).1 (execErase t x).2 :=
    fun x => by simp only [ownTrackErase, ht]
  refine ⟨fun hst => ?_, fun hst hp hb hne hnd hl => ?_⟩
  · refine congrArg Host.Outcome.next (serve_outsideHold (f := id) h hold (hown _) ?_ rfl)
    rw [execErase_of_empty (by rw [xtrack]; exact hst)]
    rfl
  · have xpassOn : (taken lk true s).passOn t = false := by simpa only [State.passOn, xpass] using hp
    have hexec := execErase_of_unpinned (s := taken lk true s) (t := t) (by rw [xtrack, hst]; decide) xpassOn
      (by rw [xbne]; exact hb) (by rw [xtrack]; exact hne) (by rw [xtrack]; exact hnd)
      (by simpa only [xtrack, xlayer] using hl)
    have herased : Erased t (tr.stack ++ tr.redo) (taken lk true s) (lowMark (erased t (taken lk true s))) := by
      have := lowMark_erased (s := taken lk true s) (t := t) (by rw [xtrack, hst]) xpassOn (by rw [xtrack]; exact hnd)
        (by simpa only [xtrack, xlayer] using hl)
      rwa [xtrack] at this
    generalize lowMark (erased t (taken lk true s)) = m at hexec herased
    rw [herased.track] at hexec
    have hruns : m.linkRuns lk = true :=
      (herased.only.linkRuns lk).trans ((taken_linkRuns lk lk true s).trans (State.ready_linkRuns h))
    obtain ⟨-, ulys, upgp, -⟩ := pushReply_fields lk (s.firstReplyOf 0x0C tag .ok .none) m
    have uinner := pushReply_inner lk (s.firstReplyOf 0x0C tag .ok .none) m
    have uevents := pushReply_events lk (s.firstReplyOf 0x0C tag .ok .none) m
    have hreply := served_getLast (s := s) (lk := lk) (code := 0x0C) (tag := tag) (rc := .ok) (f := fun _ => m)
      (p := .none) hruns
    have hserved : exec (.trackErase lk tag track) s = .next (s.served lk 0x0C tag .ok fun _ => m) := by
      refine congrArg Host.Outcome.next (serve_outsideHold (f := fun _ => m) h hold (hown _) ?_ herased.only.fields.1)
      rw [hexec]
      rfl
    have hu : (s.served lk 0x0C tag .ok fun _ => m) = pushReply lk (s.firstReplyOf 0x0C tag .ok .none) m := rfl
    rw [hu] at hserved hreply
    generalize pushReply lk (s.firstReplyOf 0x0C tag .ok .none) m = u at *
    have hlow : u.pgp.low = lowFlagAfter s.pgp.low u.pgp.free.length := by rw [upgp, herased.low, xpgp]
    refine ⟨u, hserved, ?_, ?_, fun v hv => ?_, fun id hid => ?_, fun id hid => ?_, ?_, ?_, ?_, hlow, fun hlow j hh => ?_,
      fun hlow j e he hnew => ?_, _, hreply, rfl, rfl, rfl⟩
    · rw [uinner, ulys, upgp, herased.only.1]
      exact congrArg (fun y : State => { y with lys := m.lys, pgp := m.pgp }) (taken_inner lk true s)
    · rw [State.track_congr ulys, herased.track, xtrack]
    · rw [State.track_congr ulys, herased.tracks v hv, xtrack]
    · rw [State.layer_congr ulys, herased.layer, if_pos hid]
    · rw [State.layer_congr ulys, herased.layer, if_neg hid, xlayer]
    · rw [ulys, herased.serials, xlys]
    · rw [ulys, herased.parks, xlys]
    · rw [upgp]
      have hpages : (taken lk true s).pagesOf = s.pagesOf := funext fun id => by simp only [State.pagesOf, xlayer]
      have hfree : m.pgp.free = s.pgp.free ++ (tr.stack ++ tr.redo).flatMap s.pagesOf := by
        rw [herased.free, xpgp, hpages]
      have hpgp := herased.pgp
      rw [xpgp] at hpgp
      calc m.pgp = _ := hpgp
        _ = _ := by rw [hfree]; rfl
    · rw [upgp] at hlow ⊢
      rw [uevents]
      obtain ⟨e, he, hinfo, hbody⟩ := herased.heard (by rw [xpgp]; exact hlow) j 1
        ((adds_taken (P := fun _ => True) (fun _ => trivial) lk true s).hears (m := 0) (by simp) (by simpa using hh))
      exact ⟨e, he, hinfo.trans (State.info_congr xcyc), hbody⟩
    · rw [upgp] at hlow
      rw [uevents, herased.silent (by rw [xpgp]; exact hlow)] at he
      exact (adds_taken (P := fun b => b.kind ≠ .poolLow) (fun _ => by simp [EventBody.kind]) lk true s).new he hnew

end Sys2Proof.Machine
end

section
/-! PROOFS. A BOUNCE in COMMIT mode: its checks, its claim of a record and of its pages, and the reclaim of a victim (R28,
R35, R57 to R61, R134). -/

namespace Sys2Proof.Machine

/-! ## The reservation in ascending order (R60, R61) -/

theorem insertPage_ascending {x : Page} : ∀ {ps : List Page}, ps.Pairwise (· < ·) → x ∉ ps →
    (insertPage x ps).Pairwise (· < ·)
  | [], _, _ => List.pairwise_singleton _ _
  | y :: ys, h, hn => by
    obtain ⟨hy, hys⟩ := List.pairwise_cons.1 h
    unfold insertPage
    split
    · next hlt =>
      refine List.pairwise_cons.2 ⟨fun z hz => ?_, h⟩
      obtain rfl | hz := List.mem_cons.1 hz
      · exact hlt
      · exact hlt.trans (hy z hz)
    · next hge =>
      have hne : y ≠ x := fun e => hn (e ▸ List.mem_cons_self)
      have hlt : y < x := lt_of_le_of_ne (not_lt.1 hge) hne
      refine List.pairwise_cons.2 ⟨fun z hz => ?_, insertPage_ascending hys fun hm => hn (List.mem_cons_of_mem _ hm)⟩
      obtain rfl | hz := List.mem_cons.1 ((insertPage_perm x ys).mem_iff.1 hz)
      · exact hlt
      · exact hy z hz

theorem sortPages_ascending : ∀ {ps : List Page}, ps.Nodup → (sortPages ps).Pairwise (· < ·)
  | [], _ => List.Pairwise.nil
  | x :: ps, h => by
    obtain ⟨hx, hps⟩ := List.nodup_cons.1 h
    exact insertPage_ascending (sortPages_ascending hps) fun hm => hx ((sortPages_perm ps).mem_iff.1 hm)

/-- Distinct pages, of which some move into the reservation: it stays ascending. -/
theorem reserve_ascending {free reserved : List Page} (h : (reserved ++ free).Nodup) (n : Nat) :
    (sortPages (reserved ++ free.take n)).Pairwise (· < ·) :=
  sortPages_ascending (h.sublist ((List.take_sublist n free).append_left reserved))

/-! ## The claim (R60) -/

/-- The claim met out of what is free: the record FORMING, the pages reserved. -/
def commitClaim (t : TrackId) (len need : Nat) (id : LayerId) (s : State) : State :=
  let u := advanceSerial (s.withLayer id (some (formingLayer t len s.lys.serials)))
  lowMark (u.withPgp { u.pgp with free := u.pgp.free.drop need,
                                  reserved := sortPages (u.pgp.reserved ++ u.pgp.free.take need) })

/-- What a commit's claim leaves. -/
theorem commitClaim_fields (t : TrackId) (len need : Nat) (id : LayerId) (s : State) :
    (commitClaim t len need id s).pgp.free = s.pgp.free.drop need ∧
      (commitClaim t len need id s).pgp.reserved = sortPages (s.pgp.reserved ++ s.pgp.free.take need) ∧
      (commitClaim t len need id s).pgp.reclaims = s.pgp.reclaims ∧
      (commitClaim t len need id s).pgp.reclaimedPages = s.pgp.reclaimedPages ∧
      (commitClaim t len need id s).pgp.pinnedTotal = s.pgp.pinnedTotal ∧
      (commitClaim t len need id s).lys =
        (advanceSerial (s.withLayer id (some (formingLayer t len s.lys.serials)))).lys := by
  unfold commitClaim
  extract_lets u
  rw [lowMark_pgp, lowMark_lys]
  exact ⟨rfl, rfl, rfl, rfl, rfl, rfl⟩

theorem commitClaim_layer (t : TrackId) (len need : Nat) (id : LayerId) (s : State) (k : LayerId) :
    (commitClaim t len need id s).layer k = if k = id then some (formingLayer t len s.lys.serials) else s.layer k := by
  obtain ⟨-, -, -, -, -, hlys⟩ := commitClaim_fields t len need id s
  exact (State.layer_congr hlys k).trans (State.withLayer_layer s id k _)

theorem commitClaim_track (t : TrackId) (len need : Nat) (id : LayerId) (s : State) (v : TrackId) :
    (commitClaim t len need id s).track v = s.track v := by
  obtain ⟨-, -, -, -, -, hlys⟩ := commitClaim_fields t len need id s
  exact State.track_congr (u := commitClaim t len need id s) hlys v

theorem adds_commitClaim (t : TrackId) (len need : Nat) (id : LayerId) (s : State) :
    adds 1 (fun _ => True) s (commitClaim t len need id s) := by
  unfold commitClaim
  extract_lets u
  have hu : adds 0 (fun _ => True) s u :=
    (adds_withLayer id (some (formingLayer t len s.lys.serials)) s).after (.of_eq rfl rfl)
  clear_value u
  exact hu.after ((adds_withPgp _ u).after (adds_lowMark (fun _ _ => trivial) _))

/-- Too few pages, with all that may be reclaimed (R60). -/
theorem bounceClaim_noRoom {t : TrackId} {s : State} {id : LayerId} (hid : s.freeRecord = some id)
    (h : s.freeCount + s.reclaimable < ceilDiv ((s.trackLen t).getD 0) 256) : bounceClaim t s = .error .noRoom := by
  unfold bounceClaim
  extract_lets len need s1
  rw [if_neg (by simp [hid]), if_pos h]

/-- A claim that a reclaim run meets, which may reclaim nothing (R58, R60). -/
theorem bounceClaim_of_run {t : TrackId} {s s1 : State} {id dest : LayerId} (hid : s.freeRecord = some id)
    (h : ceilDiv ((s.trackLen t).getD 0) 256 ≤ s.freeCount + s.reclaimable)
    (hrun : reclaimRun .bounce
      (fun x => x.freeRecord.isSome && ceilDiv ((s.trackLen t).getD 0) 256 ≤ x.freeCount) 48 s = s1)
    (hdest : s1.freeRecord = some dest) : bounceClaim t s =
      .ok (dest, commitClaim t ((s.trackLen t).getD 0) (ceilDiv ((s.trackLen t).getD 0) 256) dest s1) := by
  unfold bounceClaim
  extract_lets len need s2
  have h2 : s2 = s1 := hrun
  rw [if_neg (by simp [hid]), if_neg (Nat.not_lt.2 h), h2]
  simp only [hdest]
  rfl

/-! ## The start (R134) -/

/-- The bounce that a COMMIT over the bottom layers of a track starts with. -/
def commitBounce (t : TrackId) (count : Nat) (lk : Link) (tag : Byte) (dest : LayerId) (s : State) : Bounce where
  track := t
  count := count
  mode := .commit
  station := lk
  tag := tag
  owed := true
  sources := ((s.track t).stack.take count).map fun id =>
    ⟨id, ((s.layer id).map (·.serial)).getD 0, ((s.layer id).map (·.level)).getD 0⟩
  dest := some dest
  total := ceilDiv ((s.trackLen t).getD 0) 32
  done := 0
  stroke := some (0, strokeCost .commit count ((s.trackLen t).getD 0) 0)
  peak := 0
  clips := 0
  suspendPending := false

theorem startBounce_of_error {t : TrackId} {count : Nat} {lk : Link} {tag : Byte} {s : State} {c : ReplyCode}
    (hc : s.bounceCheck t count = none) (h : bounceClaim t s = .error c) :
    startBounce t count .commit lk tag s = .error c := by
  unfold startBounce
  simp only [hc, h]

theorem startBounce_of_ok {t : TrackId} {count : Nat} {lk : Link} {tag : Byte} {s s1 : State} {dest : LayerId}
    (hc : s.bounceCheck t count = none) (h : bounceClaim t s = .ok (dest, s1)) :
    startBounce t count .commit lk tag s = .ok ((s1.withBne
      { s1.bne with active := some (commitBounce t count lk tag dest s), engine := .committing }).withTmc
        { s1.tmc with credit := 0 }) := by
  unfold startBounce
  simp only [hc, h]
  rfl

/-- The start checks on the bottom of a LOOPING track's stack, LIVE and unpinned (R134). -/
theorem State.bounceCheck_none {s : State} {t : TrackId} {sources above : List LayerId}
    (hst : (s.track t).state = .looping) (hstack : (s.track t).stack = sources ++ above)
    (hs : ∀ x ∈ sources, ∃ y, s.layer x = some y ∧ y.state = .live ∧ y.pinned = false) :
    s.bounceCheck t sources.length = none := by
  unfold State.bounceCheck
  extract_lets tr bottom
  have hbottom : bottom = sources := by
    simp only [bottom, tr, hstack, List.take_left]
  have hlive : (sources.all fun id => (s.layer id).any fun l => l.state = .live) = true := by
    refine List.all_eq_true.2 fun x hx => ?_
    obtain ⟨y, hy, hl, -⟩ := hs x hx
    simp [hy, hl]
  have hpin : (sources.any fun id => (s.layer id).any (·.pinned)) = false := by
    refine List.any_eq_false.2 fun x hx => ?_
    obtain ⟨y, hy, -, hp⟩ := hs x hx
    simp [hy, hp]
  rw [hbottom, hpin, if_neg (by simp [hlive, tr, hst])]
  rfl

/-! ## One victim (R57 to R59) -/

/-- What the reclaim of the victim leaves. -/
structure Reclaimed (v : LayerId) (y : Layer) (need : Need) (s u : State) : Prop where
  only : onlyStore s u
  free : u.pgp.free = s.pgp.free ++ y.map.map (·.2)
  reserved : u.pgp.reserved = s.pgp.reserved
  reclaims : u.pgp.reclaims = sat32 (s.pgp.reclaims + 1)
  reclaimedPages : u.pgp.reclaimedPages = sat32 (s.pgp.reclaimedPages + y.map.length)
  pinnedTotal : u.pgp.pinnedTotal = s.pgp.pinnedTotal
  layer : ∀ k, u.layer k = if k = v then none else s.layer k
  stack : (u.track y.track).stack = (s.track y.track).stack.filter (· ≠ v)
  redo : (u.track y.track).redo = (s.track y.track).redo.filter (· ≠ v)
  tracks : ∀ w, w ≠ y.track → u.track w = s.track w
  serials : u.lys.serials = s.lys.serials
  parks : u.lys.parks = s.lys.parks
  adds : adds 1 (fun _ => True) s u
  heard : ∀ n k, s.hears n .layerReclaimed k = true → ∃ e ∈ (u.link n).events,
    e.body = .layerReclaimed v y.track y.serial (y.stamp.getD 0) y.map.length need (s.freeCount + y.map.length)

theorem emptyTest_lists (t : TrackId) (s : State) (v : TrackId) : ((emptyTest t s).track v).stack = (s.track v).stack ∧
    ((emptyTest t s).track v).redo = (s.track v).redo ∧ (v ≠ t → (emptyTest t s).track v = s.track v) := by
  unfold emptyTest
  extract_lets tr
  split
  · rw [State.withTrack_track]
    split
    · next e => subst e; exact ⟨rfl, rfl, fun h => absurd rfl h⟩
    · exact ⟨rfl, rfl, fun _ => rfl⟩
  · exact ⟨rfl, rfl, fun _ => rfl⟩

theorem emptyTest_frame (t : TrackId) (s : State) : (emptyTest t s).pgp = s.pgp ∧
    (emptyTest t s).lys.layers = s.lys.layers ∧ (emptyTest t s).lys.serials = s.lys.serials ∧
    (emptyTest t s).lys.parks = s.lys.parks := by
  unfold emptyTest
  extract_lets tr
  split <;> exact ⟨rfl, rfl, rfl, rfl⟩

/-- The reclaim before its event: the layer freed, both counts up. -/
def reclaimedBy (v : LayerId) (n : Nat) (s : State) : State :=
  (freeLayer v s).withPgp { (freeLayer v s).pgp with
    reclaims := sat32 ((freeLayer v s).pgp.reclaims + 1),
    reclaimedPages := sat32 ((freeLayer v s).pgp.reclaimedPages + n) }

theorem reclaimOne_of_victim {v : LayerId} {y : Layer} {s : State} (need : Need) (hv : s.victim = some v)
    (hy : s.layer v = some y) : reclaimOne need s = some (emit (.layerReclaimed v y.track y.serial (y.stamp.getD 0)
      y.map.length need (reclaimedBy v y.map.length s).freeCount) (reclaimedBy v y.map.length s)) := by
  unfold reclaimOne
  simp only [hv, hy]
  rfl

/-- The victim's pages join the free-list tail, and both counts rise (R53, R57, R58). -/
theorem reclaimedBy_pgp {v : LayerId} {y : Layer} {s : State} (hy : s.layer v = some y) (hp : y.pinned = false) :
    (reclaimedBy v y.map.length s).pgp = { s.pgp with
      free := s.pgp.free ++ y.map.map (·.2), reclaims := sat32 (s.pgp.reclaims + 1),
      reclaimedPages := sat32 (s.pgp.reclaimedPages + y.map.length) } := by
  have hfree : freeLayer v s = emptyTest y.track (dropLayer v s) := by simp only [freeLayer, hy]
  have hpgp : (freeLayer v s).pgp = { s.pgp with free := s.pgp.free ++ y.map.map (·.2) } := by
    rw [hfree, (emptyTest_frame _ _).1, dropLayer_pgp hy, hp]
    rfl
  rw [reclaimedBy, State.withPgp_pgp, hpgp]

theorem reclaimOne_reclaimed {v : LayerId} {y : Layer} {s : State} (need : Need) (hv : s.victim = some v)
    (hy : s.layer v = some y) : ∃ u, reclaimOne need s = some u ∧ Reclaimed v y need s u := by
  have hp : y.pinned = false := by
    obtain ⟨l, hl, -, hp⟩ := State.victim_parked hv
    rw [hy] at hl
    cases hl
    exact hp
  have hone := reclaimOne_of_victim need hv hy
  refine ⟨_, hone, ?_⟩
  have honly := onlyStore_reclaimOne hone
  clear hone
  have hpgp := reclaimedBy_pgp hy hp
  have hcount : (reclaimedBy v y.map.length s).freeCount = s.freeCount + y.map.length := by
    rw [State.freeCount, hpgp, List.length_append, List.length_map]
    rfl
  rw [hcount] at honly ⊢
  set x := reclaimedBy v y.map.length s with hx
  set body := EventBody.layerReclaimed v y.track y.serial (y.stamp.getD 0) y.map.length need
    (s.freeCount + y.map.length) with hbody
  have hlys : x.lys = (emptyTest y.track (dropLayer v s)).lys := by
    rw [hx, reclaimedBy, State.withPgp_lys, freeLayer]
    simp only [hy]
  have hadds : adds 0 (fun _ => True) s x := (adds_freeLayer v s).andThen (adds_withPgp _ _)
  obtain ⟨-, elys, epgp, -⟩ := State.inner_fields (onlyEvents_emit body x).1
  obtain ⟨-, helayers, heserials, heparks⟩ := emptyTest_frame y.track (dropLayer v s)
  have htrack : ∀ w, (emit body x).track w = (emptyTest y.track (dropLayer v s)).track w :=
    State.track_congr (elys.trans hlys)
  have hself := emptyTest_lists y.track (dropLayer v s) y.track
  have hdrop := dropLayer_track hy y.track
  rw [if_pos rfl] at hdrop
  refine ⟨honly, by rw [epgp, hpgp], by rw [epgp, hpgp], by rw [epgp, hpgp], by rw [epgp, hpgp],
    by rw [epgp, hpgp], fun k => ?_, ?_, ?_, fun w hw => ?_, ?_, ?_, ?_, fun n k hh => ?_⟩
  · rw [State.layer_congr (elys.trans hlys), ← dropLayer_layer]
    simp only [State.layer, helayers]
  · rw [htrack, hself.1, hdrop]
    rfl
  · rw [htrack, hself.2.1, hdrop]
    rfl
  · rw [htrack, (emptyTest_lists y.track (dropLayer v s) w).2.2 hw, dropLayer_track hy, if_neg hw]
  · rw [elys, hlys, heserials, (dropLayer_counters v s).1]
  · rw [elys, hlys, heparks, (dropLayer_counters v s).2]
  · exact hadds.after (adds_emit rfl (fun _ => rfl) trivial x)
  · have hheard := hadds.hears (m := 0) (by simp) (n := k) (by rw [Nat.zero_add]; exact hh)
    refine ⟨⟨body, x.info, (x.station n).missed, false⟩, ?_, rfl⟩
    rw [emit, emitAt_heard hheard x.info body rfl rfl rfl]
    exact List.mem_append_right _ List.mem_cons_self

/-- The run ends with the first victim where its pages make up the need (R58). -/
theorem reclaimRun_one {need : Need} {met : State → Bool} {s u : State} (hs : met s = false)
    (h : reclaimOne need s = some u) (hu : met u = true) (n : Nat) : reclaimRun need met (n + 2) s = u := by
  rw [reclaimRun, if_neg (by simp [hs])]
  simp only [h]
  exact reclaimRun_of_met hu (n + 1)

theorem State.victim_reclaimable {s : State} {v : LayerId} {y : Layer} (hv : s.victim = some v)
    (hy : s.layer v = some y) : y.map.length ≤ s.reclaimable := by
  obtain ⟨n, hn, -⟩ := (s.victim_iff v).1 hv
  have hstamp : y.reclaimStamp = some n := by
    rw [State.reclaimAt, hy] at hn
    exact hn
  refine List.single_le_sum (fun _ _ => Nat.zero_le _) _ (List.mem_map.2 ⟨v, mem_allLayers v, ?_⟩)
  simp [hy, hstamp]

/-- With the victim's record free beside the lowest of those that were, the lower of the two is taken (R28). -/
theorem freeRecord_after {s u : State} {id v : LayerId} (hid : s.freeRecord = some id) (hv : s.layer v ≠ none)
    (hu : ∀ k, u.layer k = if k = v then none else s.layer k) : u.freeRecord = some (if v < id then v else id) := by
  obtain ⟨hnone, hlow⟩ := freeRecord_lowest hid
  have hne : id ≠ v := fun e => hv (e ▸ hnone)
  obtain ⟨k, hk⟩ := freeRecord_of_free (s := u) (k := v) (by rw [hu, if_pos rfl])
  obtain ⟨hkn, hklow⟩ := freeRecord_lowest hk
  have hfree : ∀ w, u.layer w = none ↔ w = v ∨ s.layer w = none := fun w => by
    rw [hu]
    split
    · next e => simp [e]
    · next e => simp [e]
  rw [hk, Option.some.injEq]
  have hkv : k ≤ v := not_lt.1 fun h => hklow v h ((hfree v).2 (.inl rfl))
  have hkid : k ≤ id := not_lt.1 fun h => hklow id h ((hfree id).2 (.inr hnone))
  obtain rfl | hkn := (hfree k).1 hkn
  · rw [if_pos (lt_of_le_of_ne hkid hne.symm)]
  · have hidk : id ≤ k := not_lt.1 fun h => hlow k h hkn
    have he : k = id := le_antisymm hkid hidk
    rw [if_neg (not_lt.2 (he ▸ hkv)), he]

/-! ## BOUNCE in COMMIT mode -/

/-- A BOUNCE in COMMIT mode that passes the checks before its claim (R133, R134). -/
structure CommitAsked (s : State) (lk : Link) (tag track count mode : Byte) (t : TrackId) (j : Nat) : Prop where
  ready : s.ready lk (.bounce lk tag track count mode) = true
  hold : s.inHold = false
  track : trackArg track = some t
  count : bounceCountArg count = some j
  mode : bounceModeArg mode = some .commit
  alone : s.bouncesFor lk = false
  idle : s.bne.engine = .idle
  first : s.bne.waiting = []
  check : s.bounceCheck t j = none

section
variable {s : State} {lk : Link} {tag track count mode : Byte} {t : TrackId} {j : Nat}

/-- The owner's rule of such a request as it is taken: the start decides. -/
theorem CommitAsked.rule (h : CommitAsked s lk tag track count mode t j) :
    ∃ rule, ownBounce lk tag track count mode (taken lk true s) = outsideHold (taken lk true s) rule ∧
      (∀ u, startBounce t j .commit lk tag (taken lk true s) = .ok u → rule (taken lk true s) = answer u .ok) ∧
      ∀ c, startBounce t j .commit lk tag (taken lk true s) = .error c →
        rule (taken lk true s) = answer (taken lk true s) c := by
  refine ⟨_, by simp only [ownBounce, h.track, h.count, h.mode]; rfl, ?_⟩
  obtain ⟨-, -, -, -, -, -, xbne, -⟩ := taken_fields lk true s
  have hb : (taken lk true s).bouncesFor lk = false := by simpa only [State.bouncesFor, xbne] using h.alone
  rw [if_neg (by simp [hb]), if_pos (by simp [xbne, h.idle, h.first])]
  exact ⟨fun u hu => by simp only [hu], fun c hc => by simp only [hc]⟩

theorem CommitAsked.check_taken (h : CommitAsked s lk tag track count mode t j) :
    (taken lk true s).bounceCheck t j = Option.none := by
  obtain ⟨xtrack, xlayer, -, -⟩ := taken_reads lk true s
  simpa only [State.bounceCheck, xtrack, xlayer] using h.check

/-- A claim that fails answers its code and moves nothing. -/
theorem CommitAsked.refused (h : CommitAsked s lk tag track count mode t j) {c : ReplyCode}
    (hc : bounceClaim t (taken lk true s) = .error c) :
    exec (.bounce lk tag track count mode) s = .next (s.served lk 0x11 tag c fun x => x) := by
  obtain ⟨rule, hown, -, hrule⟩ := h.rule
  exact congrArg Host.Outcome.next (serve_outsideHold (f := fun x => x) h.ready h.hold hown
    (hrule c (startBounce_of_error h.check_taken hc)) rfl)

/-- The state a claim that is met leaves, its bounce started (R134). -/
def committed (t : TrackId) (j : Nat) (lk : Link) (tag : Byte) (dest : LayerId) (s m : State) : State :=
  (m.withBne { m.bne with active := some (commitBounce t j lk tag dest s), engine := .committing }).withTmc
    { m.tmc with credit := 0 }

/-- A claim that is met starts the bounce and answers OK: what the request leaves of what the claim left. -/
theorem CommitAsked.started (h : CommitAsked s lk tag track count mode t j) {dest : LayerId} {m : State}
    (hc : bounceClaim t (taken lk true s) = .ok (dest, m)) :
    ∃ u, exec (.bounce lk tag track count mode) s = .next u ∧ u.lys = m.lys ∧ u.pgp = m.pgp ∧ u.mem = m.mem ∧
      u.bne.engine = .committing ∧ u.tmc = { s.tmc with credit := 0 } ∧
      u.bne.active = some (commitBounce t j lk tag dest (taken lk true s)) ∧
      (∀ k, (u.link k).events = (m.link k).events) ∧
      ∃ r ∈ (u.link lk).replies.getLast?, r.request = 0x11 ∧ r.tag = some tag ∧ r.code = .ok := by
  obtain ⟨rule, hown, hrule, -⟩ := h.rule
  have hstart := startBounce_of_ok (lk := lk) (tag := tag) h.check_taken hc
  have honly := onlyBounce_startBounce hstart
  have hm := (onlyStore_bounceClaim hc).fields
  have hruns := (honly.runs lk).trans ((taken_linkRuns lk lk true s).trans (State.ready_linkRuns h.ready))
  have hserved : exec (.bounce lk tag track count mode) s = .next (s.served lk 0x11 tag .ok fun _ =>
      committed t j lk tag dest (taken lk true s) m) :=
    congrArg Host.Outcome.next (serve_outsideHold (f := fun _ => committed t j lk tag dest (taken lk true s) m)
      h.ready h.hold hown (hrule _ hstart) honly.cyc)
  obtain ⟨-, -, -, -, -, -, -, xtmc, -⟩ := taken_fields lk true s
  obtain ⟨-, -, -, -, -, htmc, -⟩ := hm
  obtain ⟨-, ulys, upgp, -, -, -, ubne, utmc, -, umem, -⟩ := pushReply_fields lk (s.firstReplyOf 0x11 tag .ok .none)
    (committed t j lk tag dest (taken lk true s) m)
  refine ⟨_, hserved, ulys, upgp, umem, by rw [State.served, ubne]; rfl, ?_, by rw [State.served, ubne]; rfl, fun k => ?_, _,
    served_getLast (f := fun _ => committed t j lk tag dest (taken lk true s) m) hruns, rfl, rfl, rfl⟩
  · rw [State.served, utmc, committed, State.withTmc_tmc, htmc, xtmc]
  · exact pushReply_events _ _ _ _

end

/-- Settles O34: the claim without a reclaim by `reclaimRun_of_met`, with one victim by `reclaimOne_reclaimed` and
`reclaimRun_one`; the victim by `State.victim_iff`. -/
theorem bounceCommitClaimsItsPages : Obligations.BounceCommitClaimsItsPages := by
  unfold Obligations.BounceCommitClaimsItsPages
  constructor
  · intro s lk tag track count mode t j k l sources above id h hold ht hj hm hb hi hw hst hstack hlen hs hk hl hid need
    have hasked : CommitAsked s lk tag track count mode t j :=
      ⟨h, hold, ht, hj, hm, hb, hi, hw, hlen ▸ State.bounceCheck_none hst hstack hs⟩
    have xadds : adds 0 (fun _ => True) s (taken lk true s) := adds_taken (fun _ => trivial) lk true s
    obtain ⟨xtrack, xlayer, -, -⟩ := taken_reads lk true s
    obtain ⟨xcyc, xlys, xpgp, -, -, -, -, -, -, xmem, -⟩ := taken_fields lk true s
    have xlen : ((taken lk true s).trackLen t).getD 0 = k * l := by
      simp only [State.trackLen, xtrack, xcyc, hk, hl, Option.getD_some]
    have xid : (taken lk true s).freeRecord = some id := by
      simpa only [State.freeRecord, xlayer] using hid
    have xcount : (taken lk true s).freeCount = s.freeCount := by simp only [State.freeCount, xpgp]
    have xrecl : (taken lk true s).reclaimable = s.reclaimable := by simp only [State.reclaimable, xlayer]
    have xneed : ceilDiv (((taken lk true s).trackLen t).getD 0) 256 = need := by rw [xlen]; rfl
    have hlen' : ∀ n, strokeCost .commit j n 0 = (j + 1) * min 32 n := fun n => by
      rw [strokeCost, if_pos rfl, strokeSpan, Nat.mul_zero, Nat.sub_zero]
    refine ⟨fun hno => hasked.refused (bounceClaim_noRoom xid (by rw [xcount, xrecl, xneed]; exact hno)), fun hfree => ?_,
      fun v y hv hy hlow hup hyt hvs => ?_⟩
    · have hclaim := bounceClaim_of_run (t := t) (s1 := taken lk true s) xid (by rw [xneed, xcount]; omega)
        (reclaimRun_of_met (by rw [xneed, xid, xcount]; simpa using hfree) 48) xid
      rw [xneed, xlen] at hclaim
      obtain ⟨u, hexec, ulys, upgp, umem, uengine, utmc, uactive, -, ureply⟩ := hasked.started hclaim
      obtain ⟨mfree, mreserved, -, -, -, mlys⟩ := commitClaim_fields t (k * l) need id (taken lk true s)
      obtain ⟨-, -, -, -, -, -, -, cmem, -⟩ := (onlyStore_bounceClaim hclaim).fields
      rw [xpgp] at mfree mreserved
      refine ⟨u, hexec, by rw [upgp, mfree], by rw [upgp, mreserved]; exact sortPages_perm _,
        fun hnd => by rw [upgp, mreserved]; exact reserve_ascending hnd need, ?_, fun z hz => ?_, fun w => ?_, ?_, ?_,
        uengine, utmc, by rw [umem, cmem, xmem], ⟨_, uactive, rfl, rfl, ?_, ?_, rfl⟩, ureply⟩
      · rw [State.layer_congr ulys, commitClaim_layer, if_pos rfl, xlys, formingLayer]
      · rw [State.layer_congr ulys, commitClaim_layer, if_neg hz, xlayer]
      · rw [State.track_congr ulys, commitClaim_track, xtrack]
      · rw [ulys, mlys, ← xlys]
        rfl
      · rw [ulys, mlys, ← xlys]
        rfl
      · rw [commitBounce, xlen]
        rfl
      · rw [commitBounce, xlen, hlen']
    · have xvictim : (taken lk true s).victim = some v :=
        (State.victim_iff _ v).2 (by simpa only [State.reclaimAt, xlayer] using (s.victim_iff v).1 hv)
      have xy := (xlayer v).trans hy
      obtain ⟨m, hone, hm⟩ := reclaimOne_reclaimed .bounce xvictim xy
      have hdest : m.freeRecord = some (if v < id then v else id) :=
        freeRecord_after xid (by rw [xy]; simp) hm.layer
      have mcount : m.freeCount = s.freeCount + y.map.length := by
        rw [State.freeCount, hm.free, xpgp, List.length_append, List.length_map]
        rfl
      have hrun := reclaimRun_one
        (met := fun x => x.freeRecord.isSome && ceilDiv (((taken lk true s).trackLen t).getD 0) 256 ≤ x.freeCount)
        (by rw [xneed, xcount]; simp [hlow]) hone (by rw [xneed, hdest, mcount]; simpa using hup) 46
      have hall := State.victim_reclaimable xvictim xy
      have hclaim := bounceClaim_of_run (t := t) xid (by rw [xneed, xcount]; omega) hrun hdest
      rw [xneed, xlen] at hclaim
      generalize hd : (if v < id then v else id) = dest at *
      obtain ⟨u, hexec, ulys, upgp, -, -, -, uactive, uevents, ureply⟩ := hasked.started hclaim
      obtain ⟨cfree, creserved, creclaims, cpages, cpinned, clys⟩ := commitClaim_fields t (k * l) need dest m
      have hfree : m.pgp.free = s.pgp.free ++ y.map.map (·.2) := by rw [hm.free, xpgp]
      have hreserved : m.pgp.reserved = s.pgp.reserved := by rw [hm.reserved, xpgp]
      have utrack : ∀ w, u.track w = m.track w := fun w => by rw [State.track_congr ulys, commitClaim_track]
      have ulayer : ∀ z, z ≠ dest → u.layer z = if z = v then none else s.layer z := fun z hz => by
        rw [State.layer_congr ulys, commitClaim_layer, if_neg hz, hm.layer, xlayer]
      refine ⟨u, dest, hexec, rfl, by rw [upgp, cfree, hfree],
        by rw [upgp, creserved, hfree, hreserved]; exact sortPages_perm _, fun hnd => ?_, ?_, ?_, ?_, fun hne => ?_, ?_, ?_,
        fun w hw => ?_, fun z hz hzv => ?_, ⟨_, uactive, rfl⟩, fun n hh => ?_, ureply⟩
      · rw [upgp, creserved, hfree, hreserved]
        exact reserve_ascending (by rwa [← List.append_assoc]) need
      · rw [upgp, creclaims, hm.reclaims, xpgp]
        rfl
      · rw [upgp, cpages, hm.reclaimedPages, xpgp]
        rfl
      · rw [upgp, cpinned, hm.pinnedTotal, xpgp]
      · rw [ulayer v hne.symm, if_pos rfl]
      · rw [utrack, hm.stack, xtrack]
        exact List.filter_eq_self.2 fun z hz => decide_eq_true fun e => hvs (e ▸ hz)
      · rw [utrack, hm.redo, xtrack]
      · rw [utrack, hm.tracks w hw, xtrack]
      · rw [ulayer z hz, if_neg hzv]
      · rw [uevents]
        obtain ⟨e, he, hbody⟩ := hm.heard n 1 (xadds.hears (m := 0) (by simp) (by simpa using hh))
        exact ⟨e, (adds_commitClaim t (k * l) need dest m).mem he, by rw [hbody, xcount]⟩
  · intro s v
    rw [State.victim_iff]
    constructor
    · rintro ⟨n, hn, hold⟩
      obtain ⟨y, hy, hst, hp, rfl⟩ := State.reclaimAt_eq_some.1 hn
      exact ⟨y, hy, hst, hp, fun w z hz hzs hzp => hold w _ (State.reclaimAt_eq_some.2 ⟨z, hz, hzs, hzp, rfl⟩)⟩
    · rintro ⟨y, hy, hst, hp, hold⟩
      refine ⟨_, State.reclaimAt_eq_some.2 ⟨y, hy, hst, hp, rfl⟩, fun w m hm => ?_⟩
      obtain ⟨z, hz, hzs, hzp, rfl⟩ := State.reclaimAt_eq_some.1 hm
      exact hold w z hz hzs hzp

end Sys2Proof.Machine
end

section
/-! PROOFS. The close of an OPEN pass on a cycle boundary (R85, R86), and the end of a pass with its spill (R83, R84, R87). -/

namespace Sys2Proof.Machine

/-! ## A boundary of an OPEN pass -/

/-- The state in which an OPEN pass has closed on a cycle boundary with multiplier `k`: it waits for its spill. -/
def closedAt (i : Input) (p : Pass) (l : Layer) (k len : Nat) (s : State) : State :=
  ((s.withTrack p.track { s.track p.track with state := .looping, mult := some k }).withLayer p.layer
    (some { l with length := some (k * len) })).withPass i
    (some { p with state := .spillWait, close := some (k * len), spillReady := false })

theorem closeAtBoundary_eq {i : Input} {p : Pass} {l : Layer} {s : State} (hp : s.pass i = some p)
    (hl : s.layer p.layer = some l) (k len : Nat) : closeAtBoundary i p k len s = closedAt i p l k len s := by
  rw [closeAtBoundary, fixLength_of_some hl, awaitSpill]
  exact mapPass_of_some hp

theorem eighthBoundary_of_open {i : Input} {p : Pass} {s : State} (hp : s.pass i = some p) (ho : s.openAtBoundary p = true) :
    eighthBoundary i s = if p.close = none ∧ 8 ≤ s.wholeCycles p then closeAtBoundary i p 8 (s.cyc.len.getD 0) s else s := by
  simp only [eighthBoundary, hp, ho, Bool.true_and, Bool.and_eq_true, Option.isNone_iff_eq_none, decide_eq_true_eq]

theorem carriedClose_of_open {i : Input} {p : Pass} {s : State} (hp : s.pass i = some p) (ho : s.openAtBoundary p = true) :
    carriedClose i s = if p.close ≠ none ∧ 1 ≤ s.wholeCycles p then
      closeAtBoundary i p (s.wholeCycles p) (s.cyc.len.getD 0) s else s := by
  simp only [carriedClose, hp, ho, Bool.true_and, Bool.and_eq_true, Option.isSome_iff_ne_none, decide_eq_true_eq]

theorem exec_openPassEighthBoundary {s : State} (hstop : s.stopped = false) (he : s.endSettled = true) (i : Input) :
    exec (.openPassEighthBoundary i) s = .next (eighthBoundary i s) := by
  simp only [exec, execOpenPassEighthBoundary, unlessStopped, hstop, settleEnd_of_endSettled he, Bool.false_eq_true, if_false]

theorem exec_carriedClose {s : State} (hstop : s.stopped = false) (he : s.endSettled = true) (i : Input) :
    exec (.carriedClose i) s = .next (carriedClose i s) := by
  simp only [exec, execCarriedClose, unlessStopped, hstop, settleEnd_of_endSettled he, Bool.false_eq_true, if_false]

/-- Settles O42: the two tests of a boundary by `eighthBoundary_of_open` and `carriedClose_of_open`, the close by
`closeAtBoundary_eq`. -/
theorem openPassClosesOnTheBoundary : Obligations.OpenPassClosesOnTheBoundary := by
  intro s i p l len a hstop he hp hk hw hcut hl hlen hrun hpos hcyc ha k closed
  have hopen : s.openAtBoundary p = true := by
    simp [State.openAtBoundary, hk, hw, hcut, hrun, hpos, hl, hlen]
  have hwhole : s.wholeCycles p = k := by rw [State.wholeCycles, ha]; rfl
  have hclosed : ∀ n, closeAtBoundary i p n (s.cyc.len.getD 0) s = closed n := fun n => by
    rw [hcyc]
    exact closeAtBoundary_eq hp hl n len
  rw [exec_openPassEighthBoundary hstop he, exec_carriedClose hstop he, eighthBoundary_of_open hp hopen,
    carriedClose_of_open hp hopen, hwhole, hclosed, hclosed]
  refine ⟨fun hc h8 => ?_, fun hc h8 => ?_, fun hc h1 => ?_, fun hc h0 => ?_⟩
  · rw [if_pos ⟨hc, h8.ge⟩]
  · rw [if_neg fun h => absurd h.2 (by omega)]
  · rw [if_pos ⟨hc, h1⟩]
  · rw [if_neg fun h => absurd h.2 (by omega)]

/-! ## The end of a pass with its spill -/

theorem reachEnd_of_writing {i : Input} {p : Pass} {l : Layer} {s : State} (hp : s.pass i = some p) (hw : p.state = .writing)
    (hcut : p.cut = none) (hl : s.layer p.layer = some l) :
    reachEnd i s = if l.length = some l.written then
      s.withPass i (some { p with state := .spillWait, spillReady := false }) else s := by
  have hreached : s.endReached i = decide (l.length = some l.written) := by
    simp only [State.endReached, hp, hw, hcut, hl, Option.any_some, Option.isNone_none, decide_true, Bool.true_and]
    cases l.length <;> simp
  rw [reachEnd, hreached, mapPass_of_some hp]
  simp only [decide_eq_true_eq]

/-- The blend of a spill that has been resolved, where the head's slot holds its page (R83, R33, R92). -/
theorem completePass_late {i : Input} {p : Pass} {l : Layer} {pg : Page} {s : State} (hp : s.pass i = some p)
    (hl : s.layer p.layer = some l) (hpg : slotPage l.map (p.start / 256) = some pg) (spill : Block) :
    completePass true spill i s = emitAt s.cyc.last
      (passEndedBody i p (some { l with state := .live }) s.cyc.len .complete none l.written)
      (((s.withMem (writeBlock s.mem pg (p.start % 256)
        (seamBlend (readBlock s.mem pg (p.start % 256)) spill))).withLayer p.layer
        (some { l with state := .live })).withPass i none) := by
  obtain ⟨-, hread⟩ := storeBlock_of_page hl hpg silence
  obtain ⟨hstore, -⟩ := storeBlock_of_page hl hpg (seamBlend (layerBlock s p.layer p.start) spill)
  simp only [completePass, hp]
  rw [hstore, hread]
  set x := s.withMem (writeBlock s.mem pg (p.start % 256) (seamBlend (readBlock s.mem pg (p.start % 256)) spill)) with hx
  have hlx : x.layer p.layer = some l := hl
  rw [mapLayer_of_some hlx]
  have hlive : (clearPass true i (x.withLayer p.layer (some { l with state := .live }))).layer p.layer =
      some { l with state := .live } := State.withLayer_layer_same x p.layer _
  rw [hlive]
  rfl

/-- Settles O43: the end reached by `reachEnd_of_writing`, the blend by `completePass_late`. -/
theorem passEndsWithItsSpill : Obligations.PassEndsWithItsSpill := by
  constructor
  · intro s i p l hstop hp hw hcut hl
    have hexec : exec (.passReachesEnd i) s = .next (reachEnd i s) := by
      simp only [exec, execPassReachesEnd, unlessStopped, hstop, Bool.false_eq_true, if_false]
    rw [hexec, reachEnd_of_writing hp hw hcut hl]
    exact ⟨fun h => by rw [if_pos h], fun h => by rw [if_neg h]⟩
  · intro s i p l pg hstop hp hst hready hl hpg head spill live
    have hexec : exec (.spillBlend i) s = .next (blendSpill i s) := by
      simp only [exec, execSpillBlend, unlessStopped, hstop, Bool.false_eq_true, if_false]
    have hblend : blendSpill i s = completePass true spill i s := by
      simp only [blendSpill, hp, hst, hready, decide_true, Bool.and_self, if_true]
      rfl
    rw [hexec, hblend, completePass_late hp hl hpg]

end Sys2Proof.Machine
end

section
/-! PROOFS. The end of a cut pass: the last copies of its backfill, the ramps of its ends, and the block boundary that makes
them (R80, R88, R89, R92, R111). -/

namespace Sys2Proof.Machine

/-! ## The backfill (R80) -/

/-- Memory after a block is stored at a track position of layer `l`. -/
def Layer.stored (l : Layer) (pos : Nat) (b : Block) (m : List Host.Cell) : List Host.Cell :=
  match slotPage l.map (pos / 256) with
  | some pg => writeBlock m pg (pos % 256) b
  | none => m

theorem storeBlock_stored {id : LayerId} {s : State} {l : Layer} (hl : s.layer id = some l) (pos : Nat) (b : Block) :
    storeBlock id pos b s = s.withMem (l.stored pos b s.mem) := by
  simp only [storeBlock, hl, Option.bind_some, Layer.stored]
  cases slotPage l.map (pos / 256) <;> rfl

/-- Memory after the next `n` blocks of a pass's backfill, copied from the ring of its input. -/
def copied (ring : List Block) (p : Pass) (l : Layer) (n : Nat) (m : List Host.Cell) : List Host.Cell :=
  (List.range n).foldl (fun m j =>
    let c := p.snap - p.backfill + j
    l.stored ((p.start + c) % l.span) (ring.getD (p.snap - c + c / 8 - 1) silence) m) m

theorem backfillOne_eq {i : Input} {p : Pass} {l : Layer} {s : State} (hl : s.layer p.layer = some l) (c : Nat) :
    backfillOne i p c s = s.withMem
      (l.stored ((p.start + c) % l.span) ((s.input i).ring.getD (p.snap - c + c / 8 - 1) silence) s.mem) := by
  rw [backfillOne]
  simp only [hl, Option.map_some, Option.getD_some]
  exact storeBlock_stored hl _ _

theorem backfillOnes_eq {i : Input} {p : Pass} {l : Layer} : ∀ (js : List Nat) {s : State}, s.layer p.layer = some l →
    js.foldl (fun s j => backfillOne i p (p.snap - p.backfill + j) s) s = s.withMem (js.foldl (fun m j =>
      let c := p.snap - p.backfill + j
      l.stored ((p.start + c) % l.span) ((s.input i).ring.getD (p.snap - c + c / 8 - 1) silence) m) s.mem)
  | [], _, _ => rfl
  | j :: js, s, hl => by
    rw [List.foldl_cons, List.foldl_cons, backfillOne_eq hl]
    exact backfillOnes_eq js (s := s.withMem _) hl

theorem backfillCopy_eq {i : Input} {p : Pass} {l : Layer} {s : State} (hp : s.pass i = some p)
    (hl : s.layer p.layer = some l) :
    backfillCopy i s = (s.withMem (copied (s.input i).ring p l (min 8 p.backfill) s.mem)).withPass i
      (some { p with backfill := p.backfill - min 8 p.backfill }) := by
  simp only [backfillCopy, hp]
  rw [backfillOnes_eq _ hl]
  exact mapPass_of_some hp

/-! ## The ramps (R88) -/

theorem rampEnds_of_one {id : LayerId} {l : Layer} {pg : Page} {s : State} (hl : s.layer id = some l)
    (hw : l.written = 1) (hpg : slotPage l.map (l.start / 256) = some pg) :
    rampEnds id s = s.withMem (writeBlock s.mem pg (l.start % 256)
      (fadeOut (fadeIn (readBlock s.mem pg (l.start % 256))))) := by
  obtain ⟨-, hread⟩ := storeBlock_of_page hl hpg silence
  simp only [rampEnds, hl, hw, if_true, hread]
  exact (storeBlock_of_page hl hpg _).1

theorem rampEnds_of_more {id : LayerId} {l : Layer} {head tail : Page} {s : State} (hl : s.layer id = some l)
    (hw : 2 ≤ l.written) (hhead : slotPage l.map (l.start / 256) = some head)
    (htail : slotPage l.map ((l.start + l.written - 1) % l.span / 256) = some tail) :
    let q := (l.start + l.written - 1) % l.span
    let m := writeBlock s.mem tail (q % 256) (fadeOut (readBlock s.mem tail (q % 256)))
    rampEnds id s = s.withMem (writeBlock m head (l.start % 256) (fadeIn (readBlock m head (l.start % 256)))) := by
  intro q m
  obtain ⟨-, hread⟩ := storeBlock_of_page hl htail silence
  have hstore : storeBlock id q (fadeOut (layerBlock s id q)) s = s.withMem m := by
    rw [hread]
    exact (storeBlock_of_page hl htail _).1
  have hl' : (s.withMem m).layer id = some l := hl
  obtain ⟨-, hread'⟩ := storeBlock_of_page hl' hhead silence
  simp only [rampEnds, hl]
  rw [if_neg (by omega), hstore, hread']
  exact (storeBlock_of_page hl' hhead _).1

theorem rampEnds_mem (id : LayerId) (s : State) : rampEnds id s = s.withMem (rampEnds id s).mem := by
  unfold rampEnds
  split
  · rfl
  · split
    · exact (storeBlock_mem ..).1
    · rw [(storeBlock_mem ..).1, (storeBlock_mem ..).1]
      rfl

/-! ## The end (R88, R92) -/

/-- A cut pass with something written ends: its layer LIVE, with the memory `m` that the ramps leave. -/
def cutEnded (c : CutCause) (i : Input) (p : Pass) (l : Layer) (m : List Host.Cell) (s : State) : State :=
  emit (passEndedBody i p (some l) s.cyc.len .cut (some c) l.written)
    (((s.withMem m).withLayer p.layer (some { l with state := .live })).withInput i
      { s.input i with pass := none, endedHere := true })

theorem finishCut_of_written {c : CutCause} {i : Input} {p : Pass} {l : Layer} {s : State} (hp : s.pass i = some p)
    (hl : s.layer p.layer = some l) (hn : l.written ≠ 0) :
    finishCut c i s = cutEnded c i p l (rampEnds p.layer (clearPass false i s)).mem s := by
  have hl' : (rampEnds p.layer (clearPass false i s)).layer p.layer = some l := by
    rw [rampEnds_mem]
    exact hl
  simp only [finishCut, hp, hl, Option.map_some, Option.getD_some]
  rw [if_neg hn, mapLayer_of_some hl', rampEnds_mem]
  rfl

/-- With nothing written the layer is dropped. -/
theorem finishCut_of_unwritten {c : CutCause} {i : Input} {p : Pass} {l : Layer} {s : State} (hp : s.pass i = some p)
    (hl : s.layer p.layer = some l) (hn : l.written = 0) :
    finishCut c i s = emit (passEndedBody i p (some l) s.cyc.len .cut (some c) 0)
      (lowMark (stopMeasuring p.kind (settleTrack p.track (dropLayer p.layer (clearPass false i s))))) := by
  simp only [finishCut, hp, hl, Option.map_some, Option.getD_some, hn, if_true]

theorem clearPass_withPass (late : Bool) (i : Input) (x : Option Pass) (s : State) :
    clearPass late i (s.withPass i x) = clearPass late i s := by
  simp only [clearPass, State.withPass, State.withInput_input_same]
  simp only [State.withInput, Vector.set_set]

/-- The end of a cut pass whose backfill ends in the current block (R89). -/
theorem endCutBackfill_copied {c : CutCause} {i : Input} {p : Pass} {l : Layer} {s : State} (hp : s.pass i = some p)
    (hc : p.cut = some c) (hl : s.layer p.layer = some l) (hb : p.backfill ≤ 8) :
    endCutBackfill i (backfillCopy i s) = finishCut c i ((s.withMem (copied (s.input i).ring p l p.backfill s.mem)).withPass i
      (some { p with backfill := 0 })) := by
  rw [backfillCopy_eq hp hl, min_eq_right hb, Nat.sub_self]
  simp only [endCutBackfill, State.withPass_pass_same, hc, if_true]

/-- A cut pass with something written ends LIVE on the memory that the last copies and the ramps leave. -/
theorem endCutBackfill_of_written {c : CutCause} {i : Input} {p : Pass} {l : Layer} {s : State} (hp : s.pass i = some p)
    (hc : p.cut = some c) (hl : s.layer p.layer = some l) (hb : p.backfill ≤ 8) (hn : l.written ≠ 0) :
    endCutBackfill i (backfillCopy i s) = cutEnded c i p l
      (rampEnds p.layer (clearPass false i (s.withMem (copied (s.input i).ring p l p.backfill s.mem)))).mem s := by
  rw [endCutBackfill_copied hp hc hl hb]
  generalize copied (s.input i).ring p l p.backfill s.mem = m
  have h := finishCut_of_written (c := c) (i := i) (p := { p with backfill := 0 }) (l := l)
    (s := (s.withMem m).withPass i (some { p with backfill := 0 })) (State.withPass_pass_same ..) hl hn
  rw [h, clearPass_withPass]
  simp only [cutEnded, State.withPass, State.withInput_input_same]
  simp only [State.withInput, State.withMem, State.withLayer, Vector.set_set]
  rfl

/-- What the end of a pass that leaves nothing leaves of the layers, the pool and take memory. -/
theorem dropPass_fields (i : Input) (p : Pass) (s : State) :
    let u := stopMeasuring p.kind (settleTrack p.track (dropLayer p.layer (clearPass false i s)))
    u.lys.layers = (dropLayer p.layer (clearPass false i s)).lys.layers ∧
      u.pgp = (dropLayer p.layer (clearPass false i s)).pgp ∧ u.mem = s.mem := by
  have hdrop : (dropLayer p.layer (clearPass false i s)).mem = s.mem := by
    obtain ⟨-, -, -, -, -, -, -, hm, -⟩ := (onlyStore_dropLayer p.layer (clearPass false i s)).fields
    exact hm
  have hsettle : ∀ x : State, (settleTrack p.track x).lys.layers = x.lys.layers ∧ (settleTrack p.track x).pgp = x.pgp ∧
      (settleTrack p.track x).mem = x.mem := by
    intro x
    unfold settleTrack
    extract_lets tr
    split <;> exact ⟨rfl, rfl, rfl⟩
  have hstop : ∀ x : State, (stopMeasuring p.kind x).lys = x.lys ∧ (stopMeasuring p.kind x).pgp = x.pgp ∧
      (stopMeasuring p.kind x).mem = x.mem := by
    intro x
    unfold stopMeasuring
    split <;> exact ⟨rfl, rfl, rfl⟩
  intro u
  obtain ⟨h1, h2, h3⟩ := hsettle (dropLayer p.layer (clearPass false i s))
  obtain ⟨k1, k2, k3⟩ := hstop (settleTrack p.track (dropLayer p.layer (clearPass false i s)))
  exact ⟨(congrArg Lys.layers k1).trans h1, k2.trans h2, (k3.trans h3).trans hdrop⟩

/-- A cut pass with nothing written ends with its layer freed (R88). -/
theorem finishCut_freed {c : CutCause} {i : Input} {p : Pass} {l : Layer} {s : State} (hp : s.pass i = some p)
    (hl : s.layer p.layer = some l) (hn : l.written = 0) :
    (finishCut c i s).pass i = none ∧ (finishCut c i s).layer p.layer = none ∧ (finishCut c i s).mem = s.mem ∧
      (finishCut c i s).pgp.free = s.pgp.free ++ l.map.map (·.2) ∧
      ∀ j, s.hears j .passEnded 1 = true → ∃ e ∈ ((finishCut c i s).link j).events,
        e.body = passEndedBody i p (some l) s.cyc.len .cut (some c) 0 := by
  have hpass : (finishCut c i s).pass i = none := by
    rw [State.pass_congr (finishCut_pse hp c), clearPass_pass]
  obtain ⟨hlayers, hpgp, hmem⟩ := dropPass_fields i p s
  have hadds : adds 0 (fun _ => True) s
      (stopMeasuring p.kind (settleTrack p.track (dropLayer p.layer (clearPass false i s)))) := adds_dropPass ..
  rw [finishCut_of_unwritten hp hl hn] at *
  generalize stopMeasuring p.kind (settleTrack p.track (dropLayer p.layer (clearPass false i s))) = x at *
  generalize hbody : passEndedBody i p (some l) s.cyc.len .cut (some c) 0 = body at *
  have hkind : body.kind = .passEnded := by rw [← hbody]; rfl
  have hwork : body.ofWork := hbody ▸ passEndedBody_ofWork ..
  obtain ⟨-, elys, epgp, -, -, -, -, -, -, emem, -⟩ := State.inner_fields (onlyEvents_emit body (lowMark x)).1
  obtain ⟨-, -, -, -, -, -, -, lmem, -⟩ := (onlyStore_lowMark x).fields
  have hl' : (clearPass false i s).layer p.layer = some l := hl
  refine ⟨hpass, ?_, by rw [emem, lmem, hmem], ?_, fun j hh => ?_⟩
  · rw [State.layer_congr (elys.trans (lowMark_lys x)), State.layer, hlayers]
    exact (dropLayer_layer _ _ _).trans (if_pos rfl)
  · rw [epgp, lowMark_pgp, hpgp, dropLayer_pgp hl']
    rfl
  · have hheard := (hadds.after (adds_lowMark (fun _ _ => trivial) x)).hears (m := 1) le_rfl (n := 0) hh
    refine ⟨⟨body, (lowMark x).info, ((lowMark x).station j).missed, false⟩, ?_, rfl⟩
    rw [emit, emitAt_heard hheard (lowMark x).info body hkind (hwork.ordinary.2 j) hwork.ordinary.1]
    exact List.mem_append_right _ (List.mem_singleton.2 rfl)

end Sys2Proof.Machine
end

section
/-! PROOFS. The block boundary of a cut pass (R89, R111), and CUT_BACKFILL_END. -/

namespace Sys2Proof.Machine

/-! ## The candidates of a mix (R112) -/

theorem insertVoice_length (v : Voice) : ∀ vs : List Voice, (insertVoice v vs).length = vs.length + 1
  | [] => rfl
  | w :: ws => by
    unfold insertVoice
    split
    · rfl
    · rw [List.length_cons, insertVoice_length v ws, List.length_cons]

theorem insertVoices_length : ∀ vs : List Voice, (vs.foldr insertVoice []).length = vs.length
  | [] => rfl
  | v :: vs => by rw [List.foldr_cons, insertVoice_length, insertVoices_length vs, List.length_cons]

theorem State.candidate_isSome (s : State) (id : LayerId) : (s.candidate id).isSome = s.sounds id := by
  unfold State.candidate State.sounds
  cases hl : s.layer id with
  | none => rfl
  | some l =>
    cases hp : s.trackPos l.track with
    | none => simp [hp]
    | some pos =>
      simp only [hp, Option.any_some]
      split
      · next h => exact h.symm
      · next h => exact (Bool.eq_false_iff.2 h).symm

theorem filterMap_length {α β : Type} {f : α → Option β} {p : α → Bool} (h : ∀ x, (f x).isSome = p x) :
    ∀ xs : List α, (xs.filterMap f).length = (xs.filter p).length
  | [] => rfl
  | x :: xs => by
    have hx := h x
    cases hf : f x with
    | none =>
      rw [hf] at hx
      rw [List.filterMap_cons_none hf, List.filter_cons_of_neg (by simp [← hx]), filterMap_length h xs]
    | some y =>
      rw [hf] at hx
      rw [List.filterMap_cons_some hf, List.filter_cons_of_pos (by simp [← hx]), List.length_cons, List.length_cons,
        filterMap_length h xs]

theorem State.candidates_length (s : State) : s.candidates.length = (allLayers.filter s.sounds).length := by
  rw [State.candidates, insertVoices_length, filterMap_length s.candidate_isSome]

theorem State.sounds_congr {s u : State} (hc : u.cyc = s.cyc) (hl : u.lys = s.lys) : u.sounds = s.sounds := by
  funext id
  simp only [State.sounds, State.trackPos, State.layer_congr hl, State.track_congr hl, hc]

/-! ## What the mix and the new block leave of the takes -/

/-- `u` has the layers, the pool, the passes and the last mix record of `s`. -/
structure KeepsTakes (s u : State) : Prop where
  lys : u.lys = s.lys
  pgp : u.pgp = s.pgp
  pass : ∀ i, u.pass i = s.pass i
  lastMix : u.mxe.lastMix = s.mxe.lastMix

theorem KeepsTakes.refl (s : State) : KeepsTakes s s := ⟨rfl, rfl, fun _ => rfl, rfl⟩

theorem KeepsTakes.trans {s u v : State} (h : KeepsTakes s u) (k : KeepsTakes u v) : KeepsTakes s v :=
  ⟨k.lys.trans h.lys, k.pgp.trans h.pgp, fun i => (k.pass i).trans (h.pass i), k.lastMix.trans h.lastMix⟩

theorem KeepsTakes.of_inner {s u : State} (h : u.inner = s.inner) : KeepsTakes s u := by
  obtain ⟨-, hl, hp, hs, -, hx, -⟩ := State.inner_fields h
  exact ⟨hl, hp, State.pass_congr hs, congrArg Mxe.lastMix hx⟩

theorem keepsTakes_foldl {α : Type} {f : State → α → State} (h : ∀ s x, KeepsTakes s (f s x)) :
    ∀ (xs : List α) (s : State), KeepsTakes s (xs.foldl f s)
  | [], s => .refl s
  | x :: xs, s => (h s x).trans (keepsTakes_foldl h xs (f s x))

theorem keepsTakes_noteClip (bus : Bus) (b : Block) (s : State) : KeepsTakes s (noteClip bus b s) := by
  unfold noteClip
  extract_lets frames count last send last' _ s1
  have h1 : KeepsTakes s s1 := ⟨rfl, rfl, fun _ => rfl, by cases bus <;> rfl⟩
  split
  · exact .refl s
  · split
    · exact h1.trans (.of_inner (onlyEvents_emit _ _).1)
    · exact h1

theorem keepsTakes_noteShed (n c a : Nat) (s : State) : KeepsTakes s (noteShed n c a s) := by
  unfold noteShed
  extract_lets short _ s1
  have h1 : KeepsTakes s s1 := ⟨rfl, rfl, fun _ => rfl, rfl⟩
  split
  · exact h1
  · exact h1.trans (.of_inner (onlyEvents_emit _ _).1)

theorem keepsTakes_placeReturn (a b : Block) (s : State) (lk : Link) : KeepsTakes s (placeReturn a b s lk) := by
  unfold placeReturn
  extract_lets r c place
  split
  · split
    · exact .refl s
    · exact ⟨rfl, rfl, fun _ => rfl, rfl⟩
    · exact ⟨rfl, rfl, fun _ => rfl, rfl⟩
  · exact .refl s

/-- The mix leaves the takes as they are, and records how many candidates it had. -/
theorem mixBlock_takes (r : List (Input × Block)) (s : State) :
    (mixBlock r s).lys = s.lys ∧ (mixBlock r s).pgp = s.pgp ∧ (∀ i, (mixBlock r s).pass i = s.pass i) ∧
      (mixBlock r s).mxe.lastMix.candidates = s.candidates.length := by
  unfold mixBlock
  extract_lets cands cap admitted leavers read voices sumsA sumsB _ s1 s2
  have h1 : s1.lys = s.lys ∧ s1.pgp = s.pgp ∧ (∀ i, s1.pass i = s.pass i) ∧
      s1.mxe.lastMix.candidates = s.candidates.length := ⟨rfl, rfl, fun _ => rfl, rfl⟩
  have h2 : KeepsTakes s1 s2 := ((keepsTakes_noteShed ..).trans (keepsTakes_noteClip ..)).trans (keepsTakes_noteClip ..)
  clear_value s1 s2
  have h := h2.trans (keepsTakes_foldl (keepsTakes_placeReturn (sumsA.map saturate) (sumsB.map saturate)) allLinks s2)
  obtain ⟨k1, k2, k3, k4⟩ := h1
  exact ⟨h.lys.trans k1, h.pgp.trans k2, fun i => (h.pass i).trans (k3 i),
    (congrArg MixRecord.candidates h.lastMix).trans k4⟩

theorem keepsTakes_closeAccount (s : State) : KeepsTakes s (closeAccount s) := by
  unfold closeAccount
  split
  · exact .refl s
  · exact ⟨rfl, rfl, fun _ => rfl, rfl⟩

theorem State.withInput_keepsTakes {s : State} {i : Input} {x : InputRec} (h : x.pass = s.pass i) :
    KeepsTakes s (s.withInput i x) := by
  refine ⟨rfl, rfl, fun j => ?_, rfl⟩
  rw [State.withInput_pass]
  split
  · next e => rw [h, e]
  · rfl

theorem keepsTakes_newPeriod (s : State) : KeepsTakes s (newPeriod s) := by
  have h1 : KeepsTakes s ((syncHandOffs s).withSmn s.smn.advance) := ⟨rfl, rfl, fun _ => rfl, rfl⟩
  have h2 := keepsTakes_foldl (f := newBlock) (fun x i => State.withInput_keepsTakes rfl) allInputs
    ((syncHandOffs s).withSmn s.smn.advance)
  exact (h1.trans h2).trans ⟨rfl, rfl, fun _ => rfl, rfl⟩

theorem keepsTakes_nextBlock (s : State) : KeepsTakes s (nextBlock s) := by
  rw [nextBlock_eq]
  obtain ⟨w, hev, -⟩ := emitMarks_onlyEvents (newPeriod s)
  have hmark : KeepsTakes (newPeriod s) ((newPeriod s).withCyc { (newPeriod s).cyc with withheld := w }) :=
    ⟨rfl, rfl, fun _ => rfl, rfl⟩
  exact ((keepsTakes_newPeriod s).trans hmark).trans (.of_inner hev.1)

/-- The end of a block and the new block leave the takes as the writes have left them; the mix has the candidates that
they leave. -/
theorem boundary_takes (order : List Input) (s : State) :
    let u := nextBlock (finishBlock order s)
    let w := written order s
    u.lys = w.lys ∧ u.pgp = w.pgp ∧ (∀ i, u.pass i = w.pass i) ∧
      u.mxe.lastMix.candidates = (allLayers.filter w.sounds).length := by
  intro u w
  have hring := keepsTakes_foldl (f := pushRing (resolvedBlock s)) (fun x i => State.withInput_keepsTakes rfl) allInputs w
  have hcyc := pushRings_cyc (resolvedBlock s) allInputs w
  have hu : u = nextBlock (closeAccount (mixBlock (allInputs.map fun i => (i, resolvedBlock s i))
    (allInputs.foldl (pushRing (resolvedBlock s)) w))) := rfl
  generalize allInputs.foldl (pushRing (resolvedBlock s)) w = x at *
  obtain ⟨m1, m2, m3, m4⟩ := mixBlock_takes (allInputs.map fun i => (i, resolvedBlock s i)) x
  have hlast := (keepsTakes_closeAccount (mixBlock (allInputs.map fun i => (i, resolvedBlock s i)) x)).trans
    (keepsTakes_nextBlock _)
  rw [← hu] at hlast
  refine ⟨hlast.lys.trans (m1.trans hring.lys), hlast.pgp.trans (m2.trans hring.pgp),
    fun i => (hlast.pass i).trans ((m3 i).trans (hring.pass i)), ?_⟩
  rw [hlast.lastMix, m4, State.candidates_length, State.sounds_congr hcyc hring.lys]

/-- After the writes of a block events only join the queues. -/
theorem adds_afterWrites (order : List Input) (s : State) :
    adds ⊤ (fun _ => True) (written order s) (nextBlock (finishBlock order s)) := by
  have hP : ∀ b : EventBody, b.ofWork → True := fun _ _ => trivial
  rw [finishBlock_eq, nextBlock_eq]
  have ring := adds_foldl_zero (fun x k => adds_withInput k _ x : ∀ x k, adds 0 (fun _ => True) x
    (pushRing (resolvedBlock s) x k)) allInputs (written order s)
  exact ((((ring.after (adds_mixBlock hP _ _)).andThen (adds_closeAccount _)).andThen (adds_newPeriod _)).trans
    (adds_emitMarks (fun _ => trivial) (fun _ _ => trivial) _)).top

/-! ## The writes of a block with one pass, and that a cut one -/

theorem mem_fullOrder (order : List Input) (i : Input) : i ∈ fullOrder order := by
  have key : ∀ (is acc : List Input), i ∈ acc ∨ i ∈ is →
      i ∈ is.foldl (fun acc i => if acc.contains i then acc else acc ++ [i]) acc := by
    intro is
    induction is with
    | nil => exact fun acc h => h.resolve_right (List.not_mem_nil)
    | cons k is ih =>
      intro acc h
      rw [List.foldl_cons]
      refine ih _ ?_
      obtain h | h := h
      · left
        split
        · exact h
        · exact List.mem_append_left _ h
      · obtain rfl | h := List.mem_cons.1 h
        · left
          split
          · next hc => exact List.contains_iff_mem.1 hc
          · exact List.mem_append_right _ (List.mem_singleton.2 rfl)
        · exact .inr h
  exact key _ [] (.inr (List.mem_append_right _ (mem_allInputs i)))

theorem writeInput_of_none {f : Input → Block} {i : Input} {s : State} (h : s.pass i = none) : writeInput f s i = s := by
  have hcopy : backfillCopy i s = s := by simp only [backfillCopy, h]
  have hlive : liveWrite i (f i) s = s := by simp only [liveWrite, h]
  rw [writeInput, hcopy, hlive]
  simp only [endCutBackfill, h]

theorem liveWrite_of_cut {i : Input} {p : Pass} {s : State} (hp : s.pass i = some p) (hc : p.cut ≠ none) (b : Block) :
    liveWrite i b s = s := by
  simp only [liveWrite, hp]
  rw [if_neg (by simp [hc])]

/-- A cut pass takes no live write: its backfill alone goes on. -/
theorem writeInput_of_cut {f : Input → Block} {i : Input} {p : Pass} {l : Layer} {c : CutCause} {s : State}
    (hp : s.pass i = some p) (hl : s.layer p.layer = some l) (hc : p.cut = some c) :
    writeInput f s i = endCutBackfill i (backfillCopy i s) := by
  have hlive : liveWrite i (f i) (backfillCopy i s) = backfillCopy i s := by
    rw [backfillCopy_eq hp hl]
    exact liveWrite_of_cut (State.withPass_pass_same ..) (by simp [hc]) (f i)
  rw [writeInput, hlive]

theorem keepsTakes_resolveInput (s : State) (i : Input) : KeepsTakes s (resolveInput s i) := by
  have h : KeepsTakes s (s.withInput i ((s.input i).resolve (s.linkRuns i) s.cyc.block)) := by
    refine State.withInput_keepsTakes ?_
    unfold InputRec.resolve
    split_ifs <;> rfl
  rw [resolveInput_eq]
  split
  · exact h.trans (.of_inner (onlyEvents_emit _ _).1)
  · exact h

theorem keepsTakes_noteSpills : ∀ (is : List Input) {s : State}, (∀ j p, s.pass j = some p → p.state ≠ .spillWait) →
    KeepsTakes s (is.foldl noteSpill s)
  | [], s, _ => .refl s
  | i :: is, s, h => by
    have hi : KeepsTakes s (noteSpill s i) := by
      refine ⟨mapPass_lys .., ?_, fun j => ?_, ?_⟩
      · unfold noteSpill mapPass
        split <;> rfl
      · rw [noteSpill, mapPass_pass]
        split
        · next e =>
          cases hp : s.pass j with
          | none => rfl
          | some p => rw [Option.map_some, if_neg (h j p hp)]
        · rfl
      · unfold noteSpill mapPass
        split <;> rfl
    exact hi.trans (keepsTakes_noteSpills is fun j p hp => h j p ((hi.pass j).symm.trans hp))

/-- Where no pass waits for its spill, the resolution leaves the takes as they are. -/
theorem keepsTakes_resolved {s : State} (h : ∀ j p, s.pass j = some p → p.state ≠ .spillWait) : KeepsTakes s (resolved s) := by
  have hr := keepsTakes_foldl keepsTakes_resolveInput allInputs s
  exact hr.trans (keepsTakes_noteSpills allInputs fun j p hp => h j p ((hr.pass j).symm.trans hp))

/-- The resolution sends at most one event an input. -/
theorem adds_resolved (s : State) : adds 4 (fun _ => True) s (resolved s) := by
  have h1 : adds 4 (fun _ => True) s (allInputs.foldl resolveInput s) := by
    refine (adds_foldl_mem (fun k _ x => ?_) s).le (le_of_eq rfl)
    rw [resolveInput_eq]
    exact adds_ite ((adds_withInput ..).after (adds_emit rfl (fun _ => rfl) trivial _)) (adds_withInput ..).none
  exact h1.andThen (adds_foldl_zero (fun x k => adds_mapPass k _ x) allInputs _)

/-- The writes of a block in which one pass is open, and that cut. -/
theorem written_of_cut {order : List Input} {i : Input} {p : Pass} {l : Layer} {c : CutCause} {s : State}
    (hp : s.pass i = some p) (ho : ∀ j, j ≠ i → s.pass j = none) (hw : p.state = .writing) (hc : p.cut = some c)
    (hl : s.layer p.layer = some l) : KeepsTakes s (resolved s) ∧
      written order s = endCutBackfill i (backfillCopy i (resolved s)) := by
  have hres : KeepsTakes s (resolved s) := keepsTakes_resolved fun j q hq e => by
    by_cases hj : j = i
    · subst hj
      rw [hp] at hq
      cases hq
      rw [hw] at e
      cases e
    · rw [ho j hj] at hq
      cases hq
  refine ⟨hres, ?_⟩
  have hother : ∀ j, j ≠ i → (resolved s).pass j = none := fun j hj => (hres.pass j).trans (ho j hj)
  rw [written, foldl_once (mem_fullOrder order i) (fullOrder_nodup order) (fun j _ hj => writeInput_of_none (hother j hj))
    fun j _ hj => writeInput_of_none (((ownPass_writeInput _ _ i).pass hj).trans (hother j hj))]
  exact writeInput_of_cut ((hres.pass i).trans hp) ((State.layer_congr hres.lys p.layer).trans hl) hc

/-! ## CUT_BACKFILL_END and the boundary -/

theorem finishCutBackfill_of_cut {i : Input} {p : Pass} {c : CutCause} {s : State} (hp : s.pass i = some p)
    (hc : p.cut = some c) :
    finishCutBackfill i s = if p.backfill ≤ 8 then endCutBackfill i (backfillCopy i s) else s := by
  simp only [finishCutBackfill, State.cutEndsHere, hp, hc, Option.any_some, Option.isSome_some, Bool.true_and,
    decide_eq_true_eq]

/-- More than 8 copies left: the pass stays open (R89). -/
theorem endCutBackfill_of_left {i : Input} {p : Pass} {l : Layer} {s : State} (hp : s.pass i = some p)
    (hl : s.layer p.layer = some l) (hb : 8 < p.backfill) :
    endCutBackfill i (backfillCopy i s) = (s.withMem (copied (s.input i).ring p l 8 s.mem)).withPass i
      (some { p with backfill := p.backfill - 8 }) := by
  rw [backfillCopy_eq hp hl, min_eq_left hb.le]
  simp only [endCutBackfill, State.withPass_pass_same]
  split
  · exact if_neg (by omega)
  · rfl

/-- What the end of a cut pass with something written leaves. -/
theorem cutEnded_fields (c : CutCause) (i : Input) (p : Pass) (l : Layer) (m : List Host.Cell) (s : State) :
    (cutEnded c i p l m s).pass i = none ∧
      (cutEnded c i p l m s).lys = (s.withLayer p.layer (some { l with state := .live })).lys ∧
      (cutEnded c i p l m s).pgp = s.pgp ∧ (cutEnded c i p l m s).cyc = s.cyc ∧
      ∀ j, s.hears j .passEnded 0 = true → ∃ e ∈ ((cutEnded c i p l m s).link j).events, e.info = s.info ∧
        e.body = passEndedBody i p (some l) s.cyc.len .cut (some c) l.written := by
  rw [cutEnded]
  set x := ((s.withMem m).withLayer p.layer (some { l with state := .live })).withInput i
    { s.input i with pass := none, endedHere := true } with hx
  have hpass : x.pass i = none := State.withInput_pass_same ..
  generalize hbody : passEndedBody i p (some l) s.cyc.len .cut (some c) l.written = body
  have hkind : body.kind = .passEnded := by rw [← hbody]; rfl
  have hwork : body.ofWork := hbody ▸ passEndedBody_ofWork ..
  obtain ⟨ecyc, elys, epgp, epse, -⟩ := State.inner_fields (onlyEvents_emit body x).1
  refine ⟨(State.pass_congr epse i).trans hpass, elys, epgp, ecyc, fun j hh => ⟨⟨body, x.info, (x.station j).missed, false⟩,
    ?_, rfl, rfl⟩⟩
  have hh' : x.hears j .passEnded 0 = true := hh
  rw [emit, emitAt_heard hh' x.info body hkind (hwork.ordinary.2 j) hwork.ordinary.1]
  exact List.mem_append_right _ (List.mem_singleton.2 rfl)

/-- Settles O45: the last copies by `backfillCopy_eq`, the end by `endCutBackfill_of_written` and `finishCut_freed`, the
boundary by `written_of_cut` and `boundary_takes`. -/
theorem cutPassEndsAfterItsBackfill : Obligations.CutPassEndsAfterItsBackfill := by
  constructor
  · intro s i p l c hstop hset hp hc hl
    have hexec : exec (.cutBackfillEnd i) s = .next (finishCutBackfill i s) := by
      simp only [exec, execCutBackfillEnd, unlessStopped, hstop, settleStart_of_settled hset, Bool.false_eq_true, if_false]
    rw [hexec, finishCutBackfill_of_cut hp hc]
    refine ⟨fun hb => by rw [if_neg (by omega)], fun hb => ?_⟩
    rw [if_pos hb]
    intro len m ended
    have hm : m = copied (s.input i).ring p l p.backfill s.mem := rfl
    have hended : ∀ x, ended x = cutEnded c i p l x s := fun _ => rfl
    have hl' : (clearPass false i (s.withMem m)).layer p.layer = some l := hl
    have hmem : (clearPass false i (s.withMem m)).mem = m := rfl
    simp only [hended]
    clear_value m ended
    refine ⟨fun hn => ?_, fun pg hpg => ⟨fun h1 => ?_, fun pg' h2 hpg' => ?_⟩⟩
    · rw [endCutBackfill_copied hp hc hl hb, ← hm]
      obtain ⟨h1, h2, h3, h4, h5⟩ := finishCut_freed (c := c) (i := i) (p := { p with backfill := 0 })
        (s := (s.withMem m).withPass i (some { p with backfill := 0 })) (State.withPass_pass_same ..) hl hn
      exact ⟨_, rfl, h1, h2, h3, h4, fun j hh => h5 j (State.hears_le hh (by decide))⟩
    · rw [endCutBackfill_of_written hp hc hl hb (by omega), ← hm, rampEnds_of_one hl' h1 hpg, State.withMem_mem, hmem]
    · rw [endCutBackfill_of_written hp hc hl hb (by omega), ← hm, rampEnds_of_more hl' h2 hpg hpg', State.withMem_mem, hmem]
      rfl
  · intro order s i p l c hstop hset hover hbne hp ho hw hc hl
    have hstroke : s.strokeDue = false := by simp only [State.strokeDue, hbne, Option.any_none]
    obtain ⟨hres, hwritten⟩ := written_of_cut (order := order) hp ho hw hc hl
    obtain ⟨ulys, upgp, upass, ucands⟩ := boundary_takes order s
    have uadds := adds_afterWrites order s
    have hpr := (hres.pass i).trans hp
    have hlr := (State.layer_congr hres.lys p.layer).trans hl
    have hcr := resolved_cyc s
    have radds := adds_resolved s
    rw [exec_blockBoundary hstop, settleAll_of_settled hset hover hstroke]
    generalize nextBlock (finishBlock order s) = u at *
    generalize written order s = w at *
    generalize resolved s = r at *
    refine ⟨fun hb => ?_, fun hb hn => ⟨u, rfl, ?_⟩⟩
    · rw [endCutBackfill_of_left hpr hlr hb] at hwritten
      refine ⟨u, rfl, ?_, ?_⟩
      · rw [upass, hwritten, State.withPass_pass_same]
      · rw [State.layer_congr ulys, hwritten]
        exact hlr
    · rw [endCutBackfill_of_written hpr hc hlr hb (by omega)] at hwritten
      generalize (rampEnds p.layer _).mem = m at hwritten
      obtain ⟨wpass, wlys, wpgp, wcyc, wevents⟩ := cutEnded_fields c i p l m r
      rw [← hwritten] at wpass wlys wpgp wcyc wevents
      have hlys : w.lys = (s.withLayer p.layer (some { l with state := .live })).lys := by
        rw [wlys, State.withLayer, State.withLayer, hres.lys]
      refine ⟨(upass i).trans wpass, ?_, upgp.trans (wpgp.trans hres.pgp), fun j hh => ?_, ?_⟩
      · rw [State.layer_congr (ulys.trans hlys), State.withLayer_layer_same]
      · obtain ⟨e, he, hinfo, hbody⟩ := wevents j (radds.hears (m := 4) le_rfl hh)
        exact ⟨e, uadds.mem he, hinfo.trans (State.info_congr hcr), by rw [hbody, hcr]⟩
      · rw [ucands, State.sounds_congr (u := w)
          (s := s.withLayer p.layer (some { l with state := .live })) (wcyc.trans hcr) hlys]

end Sys2Proof.Machine
end

section
/-! PROOFS. Events and replies beside the bounce engine and the controller: an event or a reply reads neither. -/

namespace Sys2Proof.Machine

/-- `g` changes nothing that an event or a reply reads or writes: the links, the stations and the block's fields. -/
structure BesideLinks (g : State → State) : Prop where
  link : ∀ s j, (g s).link j = s.link j
  station : ∀ s j, (g s).station j = s.station j
  info : ∀ s, (g s).info = s.info
  block : ∀ s, (g s).cyc.block = s.cyc.block
  withLink : ∀ s j x, (g s).withLink j x = g (s.withLink j x)
  withStation : ∀ s j x, (g s).withStation j x = g (s.withStation j x)

section
variable {g : State → State}

theorem BesideLinks.linkRuns (h : BesideLinks g) (s : State) (j : Link) : (g s).linkRuns j = s.linkRuns j := by
  rw [State.linkRuns, State.linkRuns, h.link]

theorem BesideLinks.queueEvent (h : BesideLinks g) (j : Link) (b : EventBody) (info : BlockInfo) (s : State) :
    queueEvent j b info (g s) = g (queueEvent j b info s) := by
  unfold Machine.queueEvent
  rw [h.link]
  split
  · rw [joinEvents, joinEvents, h.link, h.station, h.withLink, h.withStation]
  · rw [countDropped, countDropped, h.station, h.withStation]

theorem BesideLinks.deliver (h : BesideLinks g) {b : EventBody} (hu : b.urgent = false) (j : Link) (info : BlockInfo)
    (s : State) : deliver j b info (g s) = g (deliver j b info s) := by
  unfold Machine.deliver
  rw [h.linkRuns, h.station, hu, h.queueEvent, h.withStation]
  split
  · rfl
  · split
    · next e => cases e
    · split
      · rfl
      · split <;> rfl

/-- An event that is not urgent commutes with what is beside the links. -/
theorem BesideLinks.emit (h : BesideLinks g) {b : EventBody} (hu : b.urgent = false) (s : State) :
    emit b (g s) = g (emit b s) := by
  have key : ∀ (info : BlockInfo) (js : List Link) (x : State),
      js.foldl (fun s lk => if b.excludes lk then s else Machine.deliver lk b info s) (g x) =
        g (js.foldl (fun s lk => if b.excludes lk then s else Machine.deliver lk b info s) x) := by
    intro info js
    induction js with
    | nil => exact fun _ => rfl
    | cons j js ih =>
      intro x
      rw [List.foldl_cons, List.foldl_cons, h.deliver hu, ← apply_ite g, ih]
  rw [Machine.emit, Machine.emit, emitAt, emitAt, h.info, key]

theorem BesideLinks.pushReply (h : BesideLinks g) (j : Link) (r : Reply) (s : State) :
    pushReply j r (g s) = g (pushReply j r s) := by
  unfold Machine.pushReply
  rw [h.linkRuns, h.link, h.withLink]
  split <;> rfl

theorem BesideLinks.reply (h : BesideLinks g) (j : Link) (a t : Byte) (k : Bool) (c : ReplyCode) (p : Payload) (s : State) :
    reply j a t k c p (g s) = g (reply j a t k c p s) := by
  rw [Machine.reply, Machine.reply, h.block, h.pushReply]

end

theorem besideLinks_withBne (x : Bne) : BesideLinks fun s => s.withBne x :=
  ⟨fun _ _ => rfl, fun _ _ => rfl, fun _ => rfl, fun _ => rfl, fun _ _ _ => rfl, fun _ _ _ => rfl⟩

theorem besideLinks_withTmc (x : Tmc) : BesideLinks fun s => s.withTmc x :=
  ⟨fun _ _ => rfl, fun _ _ => rfl, fun _ => rfl, fun _ => rfl, fun _ _ _ => rfl, fun _ _ _ => rfl⟩

end Sys2Proof.Machine
end

section
/-! PROOFS. A stroke of a bounce: its exact sums, its credit and what follows it, for a SCAN (R137 to R140, R142). -/

namespace Sys2Proof.Machine

/-! ## The bounce sum (R138) -/

theorem bytesBlock_length : ∀ {n : Nat} {bs : List Byte}, bs.length = 3 * n → (bytesBlock bs).length = n
  | 0, [], _ => rfl
  | n + 1, b0 :: b1 :: b2 :: rest, h => by
    have hrest : rest.length = 3 * n := by
      simp only [List.length_cons] at h
      omega
    rw [bytesBlock, List.length_cons, bytesBlock_length hrest]
  | 0, _ :: _, h => by simp at h
  | n + 1, [], h => by simp at h
  | n + 1, [_], h => by simp at h; omega
  | n + 1, [_, _], h => by simp at h; omega

theorem readBlock_length (m : List Host.Cell) (p : Page) (j : Nat) : (readBlock m p j).length = 48 := by
  refine bytesBlock_length ?_
  unfold readBytes
  simp only [List.length_map, List.length_range]

theorem storedBlock_length (s : State) (map : List (Nat × Page)) (pos : Nat) : (storedBlock s map pos).length = 48 := by
  unfold storedBlock
  split
  · exact readBlock_length _ _ _
  · exact List.length_replicate

/-- One source's term of a frame: 0 where its written span does not hold the position. -/
theorem sourceTerms_getD (s : State) (pos : Nat) (x : Source) {f : Nat} (hf : f < 48) :
    (sourceTerms s pos x).length = 48 ∧ (sourceTerms s pos x).getD f 0 =
      (s.layer x.layer).elim 0 fun l => if inSpan l.start l.written l.span pos then
        (storedBlock s l.map pos).getD f 0 * x.level / 256 else 0 := by
  have hsilence : silence.length = 48 ∧ silence.getD f 0 = 0 := by
    rw [silence, List.length_replicate, List.getD_replicate 0 hf]
    exact ⟨rfl, rfl⟩
  unfold sourceTerms
  split
  · next l hl =>
    rw [hl, Option.elim_some]
    split
    · have hlen := storedBlock_length s l.map pos
      refine ⟨by rw [List.length_map, hlen], ?_⟩
      rw [List.getD_eq_getElem _ _ (by rw [List.length_map]; omega), List.getElem_map, List.getD_eq_getElem _ _ (by omega)]
    · exact hsilence
  · next hl =>
    rw [hl]
    exact hsilence

theorem foldl_zipWith_getD {α : Type} {g : α → Block} {f : Nat} (hf : f < 48) (hg : ∀ x, (g x).length = 48) :
    ∀ (xs : List α) (acc : Block), acc.length = 48 →
      (xs.foldl (fun acc x => List.zipWith (· + ·) acc (g x)) acc).getD f 0 =
        acc.getD f 0 + (xs.map fun x => (g x).getD f 0).sum
  | [], acc, _ => by simp
  | x :: xs, acc, h => by
    have hlen : (List.zipWith (· + ·) acc (g x)).length = 48 := by rw [List.length_zipWith, h, hg]; rfl
    have hx := hg x
    rw [List.foldl_cons, foldl_zipWith_getD hf hg xs _ hlen, List.map_cons, List.sum_cons, ← add_assoc]
    congr 1
    rw [List.getD_eq_getElem _ _ (by omega), List.getElem_zipWith, List.getD_eq_getElem _ _ (by omega),
      List.getD_eq_getElem _ _ (by omega)]

theorem bounceSum_getD (s : State) (sources : List Source) (pos : Nat) {f : Nat} (hf : f < 48) :
    (bounceSum s sources pos).getD f 0 = (sources.map fun x => (s.layer x.layer).elim 0 fun l =>
      if inSpan l.start l.written l.span pos then (storedBlock s l.map pos).getD f 0 * x.level / 256 else 0).sum := by
  have hsilence : silence.getD f 0 = 0 := List.getD_replicate 0 hf
  have hlen : silence.length = 48 := List.length_replicate
  rw [bounceSum, foldl_zipWith_getD hf (fun x => (sourceTerms_getD s pos x hf).1) _ _ hlen, hsilence, zero_add]
  exact congrArg List.sum (List.map_congr_left fun x _ => (sourceTerms_getD s pos x hf).2)

/-! ## A stroke that is paid for (R137) -/

/-- The bounce after a stroke with these sums: one more stroke done, peak and clip frames brought up to date. -/
def Bounce.advanced (b : Bounce) (sums : List Block) : Bounce :=
  { b with done := b.done + 1, peak := sums.foldl blockPeak b.peak, clips := b.clips + (sums.map clippedFrames).sum }

/-- The credit reduced by the stroke's cost, and its saturated sums in the stroke buffer. -/
def strokePaid (cost : Nat) (sums : List Block) (s : State) : State :=
  (s.withTmc { s.tmc with credit := s.tmc.credit - cost }).withBne
    { s.bne with buffer := sums.map (·.map saturate) ++ s.bne.buffer.drop sums.length }

theorem exec_bounceStrokeComplete {s : State} (hstop : s.stopped = false) (he : s.endSettled = true) :
    exec .bounceStrokeComplete s = .next (if s.strokeDue then strokeStep s else s) := by
  simp only [exec, execBounceStrokeComplete, unlessStopped, hstop, settleEnd_of_endSettled he, Bool.false_eq_true, if_false]

theorem exec_stroke_unpaid {s : State} {b : Bounce} {n cost : Nat} (hstop : s.stopped = false) (he : s.endSettled = true)
    (hb : s.bne.active = some b) (hs : b.stroke = some (n, cost)) (hc : s.tmc.credit < cost) :
    exec .bounceStrokeComplete s = .next s := by
  have hdue : s.strokeDue = false := by
    simp only [State.strokeDue, hb, hs, Option.any_some]
    exact decide_eq_false (Nat.not_le.2 hc)
  rw [exec_bounceStrokeComplete hstop he, if_neg (by simp [hdue])]

theorem exec_stroke_paid {s : State} {b : Bounce} {n cost : Nat} (hstop : s.stopped = false) (he : s.endSettled = true)
    (hb : s.bne.active = some b) (hs : b.stroke = some (n, cost)) (hc : cost ≤ s.tmc.credit) :
    let len := (s.trackLen b.track).getD 0
    let sums := strokeSums s b n len
    exec .bounceStrokeComplete s = .next (afterStroke (b.advanced sums) len (writeStroke b n sums (strokePaid cost sums s))) := by
  intro len sums
  have hdue : s.strokeDue = true := by
    simp only [State.strokeDue, hb, hs, Option.any_some]
    exact decide_eq_true hc
  rw [exec_bounceStrokeComplete hstop he, if_pos hdue]
  simp only [strokeStep, hb, hs]
  rw [if_pos hc, Bounce.advanced, hs]
  rfl

theorem clippedFrames_eq (x : Block) :
    clippedFrames x = (x.filter fun v => v < -8388608 ∨ 8388607 < v).length := by
  unfold clippedFrames
  refine congrArg List.length (List.filter_congr fun v _ => decide_eq_decide.2 ?_)
  unfold saturate
  omega

theorem Bounce.advanced_eq (b : Bounce) (sums : List Block) : b.advanced sums =
    { b with done := b.done + 1, peak := sums.foldl (fun m x => x.foldl (fun m v => max m v.natAbs) m) b.peak,
             clips := b.clips + (sums.map fun x => (x.filter fun v => v < -8388608 ∨ 8388607 < v).length).sum } := by
  have h : clippedFrames = fun x => (x.filter fun v => v < -8388608 ∨ 8388607 < v).length := funext clippedFrames_eq
  rw [Bounce.advanced, h]
  rfl

theorem strokeSums_length (s : State) (b : Bounce) (n len : Nat) : (strokeSums s b n len).length = strokeSpan len n := by
  rw [strokeSums, List.length_map, List.length_range]

theorem writeStroke_scan {b : Bounce} (hd : b.dest = none) (n : Nat) (sums : List Block) (s : State) :
    writeStroke b n sums s = s := by
  simp only [writeStroke, hd]

/-- More strokes to come: the suspension pending takes effect, or else the next stroke is in flight (R142). -/
theorem afterStroke_of_more {b : Bounce} (h : b.done ≠ b.total) (len : Nat) (s : State) : afterStroke b len s =
    s.withBne (if b.suspendPending then
      { s.bne with active := some { b with stroke := none, suspendPending := false }, engine := .suspended }
    else { s.bne with active := some { b with stroke := some (b.done, strokeCost b.mode b.count len b.done) } }) := by
  rw [afterStroke, if_neg h]
  split <;> rfl

theorem afterStroke_of_last {b : Bounce} (h : b.done = b.total) (len : Nat) (s : State) :
    afterStroke b len s = endBounce b (s.withBne { s.bne with active := some b }) := by
  rw [afterStroke, if_pos h]

/-- The end of a SCAN to which its reply is owed: event and reply read neither engine nor credit. -/
theorem endBounce_scan {b : Bounce} (hd : b.dest = none) (ho : b.owed = true) (hm : b.mode = .scan) (s : State) (x : Bne)
    (y : Tmc) : endBounce b ((s.withTmc y).withBne x) =
      ((reply b.station 0x11 b.tag true .done (.bounce b.peak b.clips none)
        (emit (.bounceEnded b.track b.count .scan none b.station b.done b.total b.peak b.clips none) s)).withBne
        { x with active := none, engine := .idle }).withTmc { y with credit := 0 } := by
  unfold endBounce
  simp only [hd, ho, hm, if_true, State.destOf, Option.map_none, bounceCode]
  rw [(besideLinks_withBne x).emit rfl, (besideLinks_withTmc y).emit rfl, (besideLinks_withBne x).reply,
    (besideLinks_withTmc y).reply]
  generalize reply b.station 0x11 b.tag true .done (.bounce b.peak b.clips none) _ = z
  rfl

end Sys2Proof.Machine
end

section
/-! PROOFS. A stroke of a COMMIT: what it writes to the destination (R61, R137), and the end of a bounce (R36, R139, R141). -/

namespace Sys2Proof.Machine

/-! ## The destination's slot (R61) -/

theorem withLayer_withMem_withLayer (s : State) (id : LayerId) (x y : Option Layer) (m : List Host.Cell) :
    ((s.withLayer id x).withMem m).withLayer id y = (s.withLayer id y).withMem m := by
  rw [← State.withLayer_withLayer s id x y]
  rfl

theorem slotPage_putSlot (slot : Nat) (pg : Page) : ∀ m : List (Nat × Page), slotPage (putSlot slot pg m) slot = some pg
  | [] => if_pos rfl
  | (a, x) :: rest => by
    unfold putSlot
    split
    · exact if_pos rfl
    · split
      · exact if_pos rfl
      · next hn => rw [slotPage, if_neg (Ne.symm hn), slotPage_putSlot slot pg rest]

/-- A slot of the destination holds page `pg` with the page map `map` and leaves the reservation `reserved`: it holds it
already, or takes the lowest reserved page. -/
def slotTaken (d : Layer) (slot : Nat) (before reserved : List Page) (pg : Page) (map : List (Nat × Page)) : Prop :=
  slotPage d.map slot = some pg ∧ reserved = before ∧ map = d.map ∨
    slotPage d.map slot = none ∧ before = pg :: reserved ∧ map = putSlot slot pg d.map

section
variable {id : LayerId} {slot : Nat} {pg : Page} {d : Layer} {s : State} {reserved : List Page} {map : List (Nat × Page)}

theorem slotTaken.page (h : slotTaken d slot s.pgp.reserved reserved pg map) : slotPage map slot = some pg := by
  obtain ⟨h, -, rfl⟩ | ⟨-, -, rfl⟩ := h
  · exact h
  · exact slotPage_putSlot slot pg d.map

/-- Without a page to take the reservation stays in order, and a page taken is below all that remain. -/
theorem slotTaken.ascending (h : slotTaken d slot s.pgp.reserved reserved pg map) (ho : s.pgp.reserved.Pairwise (· < ·)) :
    reserved.Pairwise (· < ·) ∧ (slotPage d.map slot = none → ∀ x ∈ reserved, pg < x) := by
  obtain ⟨hp, rfl, -⟩ | ⟨-, hr, -⟩ := h
  · exact ⟨ho, fun hn => by rw [hp] at hn; cases hn⟩
  · rw [hr] at ho
    obtain ⟨hlow, hrest⟩ := List.pairwise_cons.1 ho
    exact ⟨hrest, fun _ => hlow⟩

theorem destSlot_of_page (hd : s.layer id = some d) (hpg : slotPage d.map slot = some pg) : destSlot id slot s = s := by
  unfold destSlot
  split
  · next l _ _ hl _ =>
    rw [hd] at hl
    cases hl
    rw [hpg]
    exact if_pos rfl
  · rfl

theorem destSlot_taken (hd : s.layer id = some d) (h : slotTaken d slot s.pgp.reserved reserved pg map) :
    destSlot id slot s =
      (s.withPgp { s.pgp with reserved := reserved }).withLayer id (some { d with map := map }) := by
  obtain ⟨hp, rfl, rfl⟩ | ⟨hn, hr, rfl⟩ := h
  · rw [destSlot_of_page hd hp]
    exact (State.withLayer_self hd).symm
  · simp only [destSlot, hd, hr, hn]
    rfl

/-- A block written to a slot that holds its page. -/
theorem writeDest_of_page {pos : Nat} (hd : s.layer id = some d) (hslot : pos / 256 = slot)
    (hpg : slotPage d.map slot = some pg) (b : Block) : writeDest id pos b s =
      (s.withLayer id (some { d with written := d.written + 1 })).withMem (writeBlock s.mem pg (pos % 256) b) := by
  subst hslot
  rw [writeDest, destSlot_of_page hd hpg, (storeBlock_of_page hd hpg b).1]
  exact mapLayer_of_some hd

/-- Blocks written to one slot that holds its page. -/
theorem writeDests_of_page {k : Nat} : ∀ (xs : List (Block × Nat)) {d : Layer} {s : State}, s.layer id = some d →
    slotPage d.map slot = some pg → (∀ x ∈ xs, (32 * k + x.2) / 256 = slot) →
    xs.foldl (fun s x => writeDest id (32 * k + x.2) (x.1.map saturate) s) s =
      (s.withLayer id (some { d with written := d.written + xs.length })).withMem
        (xs.foldl (fun m x => writeBlock m pg ((32 * k + x.2) % 256) (x.1.map saturate)) s.mem)
  | [], d, s, hd, _, _ => (State.withLayer_self hd).symm
  | x :: xs, d, s, hd, hpg, hslot => by
    rw [List.foldl_cons, List.foldl_cons, writeDest_of_page hd (hslot x List.mem_cons_self) hpg]
    have hd' : ((s.withLayer id (some { d with written := d.written + 1 })).withMem
        (writeBlock s.mem pg ((32 * k + x.2) % 256) (x.1.map saturate))).layer id =
          some { d with written := d.written + 1 } := State.withLayer_layer_same ..
    rw [writeDests_of_page xs hd' hpg fun y hy => hslot y (List.mem_cons_of_mem _ hy), List.length_cons, Nat.add_comm xs.length,
      ← Nat.add_assoc]
    rw [withLayer_withMem_withLayer]
    rfl

/-- Blocks written to one slot, which takes its page with the first. -/
theorem writeDests_taken {k : Nat} {xs : List (Block × Nat)} (hd : s.layer id = some d)
    (h : slotTaken d slot s.pgp.reserved reserved pg map) (hne : xs ≠ []) (hslot : ∀ x ∈ xs, (32 * k + x.2) / 256 = slot) :
    xs.foldl (fun s x => writeDest id (32 * k + x.2) (x.1.map saturate) s) s =
      ((s.withPgp { s.pgp with reserved := reserved }).withLayer id
        (some { d with written := d.written + xs.length, map := map })).withMem
        (xs.foldl (fun m x => writeBlock m pg ((32 * k + x.2) % 256) (x.1.map saturate)) s.mem) := by
  have htaken := destSlot_taken hd h
  have hd' : (destSlot id slot s).layer id = some { d with map := map } := by
    rw [htaken, State.withLayer_layer_same]
  have hfirst : xs.foldl (fun s x => writeDest id (32 * k + x.2) (x.1.map saturate) s) s =
      xs.foldl (fun s x => writeDest id (32 * k + x.2) (x.1.map saturate) s) (destSlot id slot s) := by
    obtain ⟨y, ys, rfl⟩ := List.exists_cons_of_ne_nil hne
    have hy := hslot y List.mem_cons_self
    rw [List.foldl_cons, List.foldl_cons, writeDest, writeDest, hy, destSlot_of_page hd' h.page]
  rw [hfirst, writeDests_of_page xs hd' h.page hslot, htaken, State.withLayer_withLayer]
  rfl

end

/-! ## The stroke written -/

theorem zipIdx_map_range {α : Type} (g : Nat → α) (n : Nat) :
    ((List.range n).map g).zipIdx = (List.range n).map fun j => (g j, j) := by
  refine List.ext_getElem (by simp) fun i h1 h2 => ?_
  simp

/-- A stroke of a COMMIT writes its saturated sums to the destination at the same positions (R137). -/
theorem writeStroke_commit {b : Bounce} {dest : LayerId} {d : Layer} {pg : Page} {reserved : List Page}
    {map : List (Nat × Page)} {k span : Nat} {g : Nat → Block} {s : State} (hb : b.dest = some dest)
    (hd : s.layer dest = some d) (h : slotTaken d (32 * k / 256) s.pgp.reserved reserved pg map) (h1 : 1 ≤ span)
    (h32 : span ≤ 32) : writeStroke b k ((List.range span).map g) s =
      ((s.withPgp { s.pgp with reserved := reserved }).withLayer dest
        (some { d with written := d.written + span, map := map })).withMem
        ((List.range span).foldl (fun m j => writeBlock m pg ((32 * k + j) % 256) ((g j).map saturate)) s.mem) := by
  have hne : (List.range span).map (fun j => (g j, j)) ≠ [] := by
    intro e
    have := congrArg List.length e
    simp only [List.length_map, List.length_range, List.length_nil] at this
    omega
  have hslot : ∀ x ∈ (List.range span).map (fun j => (g j, j)), (32 * k + x.2) / 256 = 32 * k / 256 := by
    intro x hx
    obtain ⟨j, hj, rfl⟩ := List.mem_map.1 hx
    have := List.mem_range.1 hj
    show (32 * k + j) / 256 = 32 * k / 256
    omega
  simp only [writeStroke, hb]
  rw [zipIdx_map_range, writeDests_taken hd h hne hslot, List.length_map, List.length_range, List.foldl_map]

/-! ## The end of a bounce (R139, R140, R141) -/

/-- The bounce is over: its event is sent, its reply where one is owed, and the engine is IDLE with the credit 0. -/
def bounceOver (b : Bounce) (cause : Option BounceAbort) (code : ReplyCode) (dest : Option (LayerId × Nat)) (s : State) :
    State :=
  let s2 := emit (.bounceEnded b.track b.count b.mode cause b.station b.done b.total b.peak b.clips dest) s
  let s3 := if b.owed then reply b.station bounceCode b.tag true code (.bounce b.peak b.clips dest) s2 else s2
  (s3.withBne { s3.bne with active := none, engine := .idle }).withTmc { s3.tmc with credit := 0 }

theorem endBounce_commit {b : Bounce} {dest : LayerId} (hb : b.dest = some dest) (s : State) :
    endBounce b s = bounceOver b none .done ((commitStack b dest s).destOf b) (commitStack b dest s) := by
  unfold endBounce
  simp only [hb]
  rfl

theorem abortBounce_over {b : Bounce} {s : State} (hb : s.bne.active = some b) (mark : Bool) (cause : BounceAbort) :
    abortBounce mark cause s = bounceOver b (some cause) .cancelled none (returnBouncePages mark b s) := by
  simp only [abortBounce, hb]
  rfl

/-- What the end of a bounce leaves of the state before its event. -/
structure Over (b : Bounce) (cause : Option BounceAbort) (code : ReplyCode) (dest : Option (LayerId × Nat)) (s u : State) :
    Prop where
  lys : u.lys = s.lys
  pgp : u.pgp = s.pgp
  mem : u.mem = s.mem
  cyc : u.cyc = s.cyc
  pse : u.pse = s.pse
  bne : u.bne = { s.bne with engine := .idle, active := none }
  tmc : u.tmc = { s.tmc with credit := 0 }
  runs : ∀ j, u.linkRuns j = s.linkRuns j
  heard : ∀ j, s.hears j .bounceEnded 0 = true → ∃ e ∈ (u.link j).events, e.info = s.info ∧
    e.body = .bounceEnded b.track b.count b.mode cause b.station b.done b.total b.peak b.clips dest
  replied : b.owed = true → s.linkRuns b.station = true → ∃ r ∈ (u.link b.station).replies.getLast?,
    r.request = 0x11 ∧ r.tag = some b.tag ∧ r.completion = true ∧ r.code = code ∧ r.payload = .bounce b.peak b.clips dest

theorem pushReply_getLast {j : Link} {s : State} (hr : s.linkRuns j = true) (r : Reply) :
    ((pushReply j r s).link j).replies.getLast? = some r := by
  rw [pushReply, if_pos hr, State.withLink_link_same, List.getLast?_concat]

theorem bounceOver_over (b : Bounce) (cause : Option BounceAbort) (code : ReplyCode) (dest : Option (LayerId × Nat))
    (s : State) : Over b cause code dest s (bounceOver b cause code dest s) := by
  unfold bounceOver
  generalize hbody : EventBody.bounceEnded b.track b.count b.mode cause b.station b.done b.total b.peak b.clips dest = body
  extract_lets s2 s3 _ _
  have hkind : body.kind = .bounceEnded := by rw [← hbody]; rfl
  have hurgent : body.urgent = false := by rw [← hbody]; rfl
  have hexcl : ∀ j, body.excludes j = false := fun j => by rw [← hbody]; rfl
  have honly : onlyEvents s s2 := onlyEvents_emit body s
  obtain ⟨ecyc, elys, epgp, epse, -, -, ebne, etmc, -, emem, -⟩ := State.inner_fields honly.1
  have hruns2 : ∀ j, s2.linkRuns j = s.linkRuns j := honly.linkRuns
  have h3 : s3.cyc = s2.cyc ∧ s3.lys = s2.lys ∧ s3.pgp = s2.pgp ∧ s3.pse = s2.pse ∧ s3.bne = s2.bne ∧ s3.tmc = s2.tmc ∧
      s3.mem = s2.mem ∧ (∀ j, s3.linkRuns j = s2.linkRuns j) ∧ ∀ j, (s3.link j).events = (s2.link j).events := by
    simp only [s3]
    split
    · obtain ⟨rcyc, rlys, rpgp, rpse, -, -, rbne, rtmc, -, rmem, -⟩ := pushReply_fields b.station
        ⟨bounceCode, some b.tag, true, code, s2.cyc.block % 256, .bounce b.peak b.clips dest, false⟩ s2
      exact ⟨rcyc, rlys, rpgp, rpse, rbne, rtmc, rmem, (onlyBounce_pushReply _ _ s2).runs, pushReply_events _ _ s2⟩
    · exact ⟨rfl, rfl, rfl, rfl, rfl, rfl, rfl, fun _ => rfl, fun _ => rfl⟩
  have hlast : b.owed = true → s.linkRuns b.station = true → ∃ r ∈ (s3.link b.station).replies.getLast?,
      r.request = 0x11 ∧ r.tag = some b.tag ∧ r.completion = true ∧ r.code = code ∧
        r.payload = .bounce b.peak b.clips dest := by
    intro ho hr
    have hs3 : s3 = reply b.station bounceCode b.tag true code (.bounce b.peak b.clips dest) s2 := if_pos ho
    rw [hs3, reply, pushReply_getLast ((hruns2 _).trans hr)]
    exact ⟨_, rfl, rfl, rfl, rfl, rfl, rfl⟩
  have hevent : ∀ j, s.hears j .bounceEnded 0 = true → ∃ e ∈ (s2.link j).events, e.info = s.info ∧ e.body = body := by
    intro j hh
    refine ⟨⟨body, s.info, (s.station j).missed, false⟩, ?_, rfl, rfl⟩
    have := emitAt_heard hh s.info body hkind (hexcl j) hurgent
    simp only [s2, emit, this]
    exact List.mem_append_right _ (List.mem_singleton.2 rfl)
  obtain ⟨rcyc, rlys, rpgp, rpse, rbne, rtmc, rmem, rruns, revents⟩ := h3
  clear_value s3 s2
  refine ⟨rlys.trans elys, rpgp.trans epgp, rmem.trans emem, rcyc.trans ecyc, rpse.trans epse, ?_, ?_,
    fun j => (rruns j).trans (hruns2 j), fun j hh => ?_, hlast⟩
  · exact congrArg (fun x : Bne => { x with engine := .idle, active := none }) (rbne.trans ebne)
  · exact congrArg (fun x : Tmc => { x with credit := 0 }) (rtmc.trans etmc)
  · obtain ⟨e, he, hinfo, hb⟩ := hevent j hh
    exact ⟨e, (revents j).symm ▸ he, hinfo, hb.trans hbody.symm⟩

end Sys2Proof.Machine
end

section
/-! PROOFS. The strokes of SCAN and COMMIT and the undo that aborts a bounce, put together (R36, R61, R62, R137 to R142). -/

namespace Sys2Proof.Machine

/-! ## The stack rewritten by a COMMIT (R36) -/

/-- The sources freed and the destination LIVE at the bottom of the stack: what that leaves of the store. -/
structure Restacked (b : Bounce) (dest : LayerId) (d : Layer) (above : List LayerId) (s u : State) : Prop where
  track : u.track b.track = { s.track b.track with stack := dest :: above }
  tracks : ∀ v, v ≠ b.track → u.track v = s.track v
  live : u.layer dest = some { d with state := .live }
  sources : ∀ x ∈ b.sources, u.layer x.layer = none
  layers : ∀ id, id ≠ dest → (∀ x ∈ b.sources, x.layer ≠ id) → u.layer id = s.layer id
  free : u.pgp.free = s.pgp.free ++ b.sources.flatMap fun x => s.pagesOf x.layer
  reserved : u.pgp.reserved = s.pgp.reserved
  pinnedTotal : u.pgp.pinnedTotal = s.pgp.pinnedTotal

theorem filter_notMem_append {α : Type} [DecidableEq α] {xs ys : List α} (h : (xs ++ ys).Nodup) :
    (xs ++ ys).filter (· ∉ xs) = ys := by
  obtain ⟨-, -, hdis⟩ := List.nodup_append.1 h
  rw [List.filter_append, List.filter_eq_nil_iff.2 fun x hx => by simp [hx], List.nil_append]
  exact List.filter_eq_self.2 fun y hy => decide_eq_true fun hx => hdis y hx y hy rfl

theorem commitStack_restacked {b : Bounce} {dest : LayerId} {d : Layer} {above : List LayerId} {s : State}
    (hd : s.layer dest = some d) (hstack : (s.track b.track).stack = b.sources.map (·.layer) ++ above)
    (hnd : (s.track b.track).stack.Nodup) (hdest : dest ∉ (s.track b.track).stack)
    (hs : ∀ x ∈ b.sources, x.layer ∉ (s.track b.track).redo ∧
      ∃ y, s.layer x.layer = some y ∧ y.track = b.track ∧ y.pinned = false) :
    Restacked b dest d above s (commitStack b dest s) := by
  have hnd' := hstack ▸ hnd
  have hids : (b.sources.map (·.layer)).Nodup := (List.nodup_append.1 hnd').1
  have hmem : ∀ id ∈ b.sources.map (·.layer), id ∉ (s.track b.track).redo ∧
      ∃ l, s.layer id = some l ∧ l.track = b.track ∧ l.pinned = false := by
    intro id hid
    obtain ⟨x, hx, rfl⟩ := List.mem_map.1 hid
    exact hs x hx
  have hfreed := dropLayers_freed (t := b.track) hids fun id hid => by
    obtain ⟨-, l, h1, h2, -⟩ := hmem id hid
    exact ⟨l, h1, h2⟩
  have hbeside := dropLayers_beside (t := b.track) hids fun id hid => by
    obtain ⟨-, l, h1, h2, h3⟩ := hmem id hid
    exact ⟨l, h1, h3, h2⟩
  have hfold : b.sources.foldl (fun s x => dropLayer x.layer s) s =
      (b.sources.map (·.layer)).foldl (fun s id => dropLayer id s) s := by rw [List.foldl_map]
  have hnot : dest ∉ b.sources.map (·.layer) := fun hm => hdest (hstack ▸ List.mem_append_left _ hm)
  unfold commitStack
  rw [hfold]
  generalize (b.sources.map (·.layer)).foldl (fun s id => dropLayer id s) s = x at hfreed hbeside
  extract_lets s1 _ s2
  have hredo : (s.track b.track).redo.filter (· ∉ b.sources.map (·.layer)) = (s.track b.track).redo :=
    List.filter_eq_self.2 fun id hid => decide_eq_true fun hm => (hmem id hm).1 hid
  have htrack : x.track b.track = { s.track b.track with stack := above } := by
    rw [hfreed.track, hredo, hstack, filter_notMem_append hnd']
  have hd2 : s2.layer dest = some d := by
    show x.layer dest = some d
    rw [hfreed.layer, if_neg hnot, hd]
  have hlys : (lowMark (mapLayer dest (fun l => { l with state := .live }) s2)).lys =
      (s2.withLayer dest (some { d with state := .live })).lys := by
    rw [lowMark_lys, mapLayer_of_some hd2]
  have hpgp : (mapLayer dest (fun l => { l with state := .live }) s2).pgp = x.pgp := by
    rw [mapLayer_of_some hd2]
    rfl
  refine ⟨?_, fun v hv => ?_, ?_, fun y hy => ?_, fun id hid hsrc => ?_, ?_, ?_, ?_⟩
  · rw [State.track_congr hlys]
    refine (State.withTrack_track x b.track b.track _).trans ?_
    rw [if_pos rfl]
    show ({ x.track b.track with stack := dest :: (x.track b.track).stack } : Track) = _
    rw [htrack]
  · rw [State.track_congr hlys]
    refine (State.withTrack_track x b.track v _).trans ?_
    rw [if_neg hv, hbeside.tracks v hv]
  · rw [State.layer_congr hlys, State.withLayer_layer_same]
  · have hmy : y.layer ∈ b.sources.map (·.layer) := List.mem_map.2 ⟨y, hy, rfl⟩
    rw [State.layer_congr hlys, State.withLayer_layer, if_neg (ne_of_mem_of_not_mem hmy hnot)]
    exact (hfreed.layer y.layer).trans (if_pos hmy)
  · have hni : id ∉ b.sources.map (·.layer) := fun hm => by
      obtain ⟨y, hy, e⟩ := List.mem_map.1 hm
      exact hsrc y hy e
    rw [State.layer_congr hlys, State.withLayer_layer, if_neg hid]
    exact (hfreed.layer id).trans (if_neg hni)
  · rw [lowMark_pgp, hpgp, ← List.flatMap_map]
    exact hfreed.free
  · rw [lowMark_pgp, hpgp, hbeside.pgp]
  · rw [lowMark_pgp, hpgp, hbeside.pgp]

theorem adds_commitStack (b : Bounce) (dest : LayerId) (s : State) :
    adds 1 (fun _ => True) s (commitStack b dest s) := by
  unfold commitStack
  extract_lets s1 s2
  have h1 : adds 0 (fun _ => True) s s1 := adds_foldl_zero (fun s (x : Source) => adds_dropLayer x.layer s) b.sources s
  exact (h1.after ((adds_withTrack ..).after (adds_mapLayer ..))).after (adds_lowMark (fun _ _ => trivial) _)

/-! ## The pages of an aborted bounce returned (R62) -/

/-- What an abort's return leaves of the store. -/
structure Returned (b : Bounce) (s u : State) : Prop where
  only : onlyStore s u
  track : ∀ v, u.track v = s.track v
  layer : ∀ k, b.dest ≠ some k → u.layer k = s.layer k
  parks : u.lys.parks = s.lys.parks
  kept : b.dest = none → u.pgp = s.pgp
  freed : ∀ dest d, b.dest = some dest → s.layer dest = some d → u.layer dest = none ∧
    u.pgp.free = s.pgp.free ++ d.map.map (·.2) ++ s.pgp.reserved ∧ u.pgp.reserved = []
  adds : adds 1 (fun _ => True) s u

theorem dropLayer_unlisted {id : LayerId} {s : State}
    (h : ∀ d, s.layer id = some d → id ∉ (s.track d.track).stack ∧ id ∉ (s.track d.track).redo) (v : TrackId) :
    (dropLayer id s).track v = s.track v := by
  cases hd : s.layer id with
  | none => rw [dropLayer_of_none hd]
  | some d =>
    obtain ⟨hs, hr⟩ := h d hd
    rw [dropLayer_track hd]
    split
    · next e =>
      subst e
      unfold Track.without
      rw [List.filter_eq_self.2 fun k hk => decide_eq_true (ne_of_mem_of_not_mem hk hs),
        List.filter_eq_self.2 fun k hk => decide_eq_true (ne_of_mem_of_not_mem hk hr)]
    · rfl

theorem returnBouncePages_returned {b : Bounce} {s : State}
    (h : ∀ dest d, b.dest = some dest → s.layer dest = some d →
      dest ∉ (s.track d.track).stack ∧ dest ∉ (s.track d.track).redo) :
    Returned b s (returnBouncePages true b s) := by
  have honly := onlyStore_returnBouncePages true b s
  cases hb : b.dest with
  | none =>
    have hsame : returnBouncePages true b s = s := by simp only [returnBouncePages, hb]
    rw [hsame]
    exact ⟨.refl s, fun _ => rfl, fun _ _ => rfl, rfl, fun _ => rfl, fun dest d e => absurd e (by rw [hb]; simp),
      (adds.refl _ s).none⟩
  | some dest =>
    have hu : returnBouncePages true b s = lowMark ((givePages (dropLayer dest s).pgp.reserved (dropLayer dest s)).withPgp
        { (givePages (dropLayer dest s).pgp.reserved (dropLayer dest s)).pgp with reserved := [] }) := by
      simp only [returnBouncePages, hb, if_true]
    rw [hu] at honly ⊢
    set x := (givePages (dropLayer dest s).pgp.reserved (dropLayer dest s)).withPgp
      { (givePages (dropLayer dest s).pgp.reserved (dropLayer dest s)).pgp with reserved := [] } with hx
    have hlys : (lowMark x).lys = (dropLayer dest s).lys := lowMark_lys x
    have hadds : adds 0 (fun _ => True) s x := (adds_dropLayer dest s).after ((adds_givePages ..).after (adds_withPgp ..))
    refine ⟨honly, fun v => ?_, fun k hk => ?_, ?_, fun e => ?_, fun dest' d e hd => ?_, hadds.after
      (adds_lowMark (fun _ _ => trivial) x)⟩
    · rw [State.track_congr hlys, dropLayer_unlisted (fun d hd => h dest d hb hd)]
    · rw [State.layer_congr hlys, dropLayer_layer, if_neg fun e => hk (by rw [hb, e])]
    · rw [hlys, (dropLayer_counters dest s).2]
    · rw [hb] at e
      cases e
    · rw [hb] at e
      cases e
      refine ⟨by rw [State.layer_congr hlys, dropLayer_layer, if_pos rfl], ?_, ?_⟩
      · rw [lowMark_pgp]
        show (dropLayer dest s).pgp.free ++ (dropLayer dest s).pgp.reserved = _
        rw [dropLayer_pgp hd]
      · rw [lowMark_pgp]
        rfl

/-! ## The undo of a source (R141) -/

theorem execUndo_of_source {s : State} {t : TrackId} {rest : List LayerId} {top : LayerId} (hp : s.newestPass t = none)
    (hs : (s.track t).stack = rest ++ [top]) (hr : (s.track t).redo.length < 12) (hsrc : s.isSource top = true) :
    execUndo t s = (parkLayer top (abortBounce true .undo s), .done) := by
  have hroom : makeRedoRoom t s = s := if_neg (by omega)
  have hfull : (decide (12 ≤ (s.track t).redo.length) && !(s.havingPin true ((s.track t).redo.take 1)).isEmpty) = false := by
    rw [decide_eq_false (by omega), Bool.false_and]
  simp only [execUndo, hp, hs, List.getLast?_concat, hfull, hroom, hsrc, Bool.false_eq_true, if_false, if_true]

theorem pushReply_mem {j k : Link} {r x : Reply} {s : State} (h : x ∈ (s.link k).replies) :
    x ∈ ((pushReply j r s).link k).replies := by
  unfold pushReply
  split
  · rw [State.withLink_link]
    split
    · next e =>
      subst e
      exact List.mem_append_left _ h
    · exact h
  · exact h

end Sys2Proof.Machine
end

section
/-! PROOFS. O47: the strokes of a SCAN and of a COMMIT, and the undo that aborts a bounce (R36, R61, R62, R137 to R142). -/

namespace Sys2Proof.Machine

/-! ## A stroke of a SCAN -/

/-- A stroke of a SCAN that is paid for writes nothing beside its buffer. -/
theorem exec_scanStroke {s : State} {b : Bounce} {n cost : Nat} (hstop : s.stopped = false) (he : s.endSettled = true)
    (hb : s.bne.active = some b) (hd : b.dest = none) (hs : b.stroke = some (n, cost)) (hc : cost ≤ s.tmc.credit) :
    let len := (s.trackLen b.track).getD 0
    let sums := strokeSums s b n len
    exec .bounceStrokeComplete s = .next (afterStroke (b.advanced sums) len (strokePaid cost sums s)) := by
  intro len sums
  rw [exec_stroke_paid hstop he hb hs hc, writeStroke_scan hd]

theorem State.trackLen_of_some {s : State} {t : TrackId} {k l : Nat} (hk : (s.track t).mult = some k)
    (hl : s.cyc.len = some l) : (s.trackLen t).getD 0 = k * l := by
  simp only [State.trackLen, hk, hl, Option.getD_some]

theorem strokeCost_scan (count len k : Nat) : strokeCost .scan count len k = count * min 32 (len - 32 * k) := by
  rw [strokeCost, if_neg (by decide), strokeSpan]

theorem strokeCost_commit (count len k : Nat) : strokeCost .commit count len k = (count + 1) * min 32 (len - 32 * k) := by
  rw [strokeCost, if_pos rfl, strokeSpan]

/-! ## A stroke of a COMMIT -/

/-- The state in which a stroke of a COMMIT has been paid for and written. -/
def strokeWritten (cost : Nat) (sums : List Block) (dest : LayerId) (reserved : List Page) (written : Layer)
    (mem : List Host.Cell) (s : State) : State :=
  (((strokePaid cost sums s).withPgp { s.pgp with reserved := reserved }).withLayer dest (some written)).withMem mem

theorem exec_commitStroke {s : State} {b : Bounce} {n cost k l : Nat} {dest : LayerId} {d : Layer} {pg : Page}
    {reserved : List Page} {map : List (Nat × Page)} (hstop : s.stopped = false) (he : s.endSettled = true)
    (hb : s.bne.active = some b) (hdest : b.dest = some dest) (hs : b.stroke = some (n, cost))
    (hk : (s.track b.track).mult = some k) (hl : s.cyc.len = some l) (hd : s.layer dest = some d)
    (hc : cost ≤ s.tmc.credit) (hn : 32 * n < k * l)
    (htaken : slotTaken d (32 * n / 256) s.pgp.reserved reserved pg map) :
    let span := min 32 (k * l - 32 * n)
    let sums := (List.range span).map fun j => bounceSum s b.sources (32 * n + j)
    exec .bounceStrokeComplete s = .next (afterStroke (b.advanced sums) (k * l)
      (strokeWritten cost sums dest reserved { d with written := d.written + span, map := map }
        ((List.range span).foldl (fun m j => writeBlock m pg ((32 * n + j) % 256)
          ((bounceSum s b.sources (32 * n + j)).map saturate)) s.mem) s)) := by
  intro span sums
  have hsums : strokeSums s b n (k * l) = sums := rfl
  have hwrite := writeStroke_commit (g := fun j => bounceSum s b.sources (32 * n + j)) (span := span)
    (s := strokePaid cost sums s) hdest hd htaken (by omega) (by omega)
  rw [exec_stroke_paid hstop he hb hs hc, State.trackLen_of_some hk hl, hsums, hwrite]
  rfl

/-- The end of a COMMIT with its last stroke (R36, R139). -/
theorem endBounce_restacked {b : Bounce} {dest : LayerId} {d : Layer} {above : List LayerId} {s : State}
    (hb : b.dest = some dest) (hm : b.mode = .commit) (hd : s.layer dest = some d)
    (hstack : (s.track b.track).stack = b.sources.map (·.layer) ++ above) (hnd : (s.track b.track).stack.Nodup)
    (hdest : dest ∉ (s.track b.track).stack)
    (hs : ∀ x ∈ b.sources, x.layer ∉ (s.track b.track).redo ∧
      ∃ y, s.layer x.layer = some y ∧ y.track = b.track ∧ y.pinned = false) :
    Restacked b dest d above s (endBounce b s) ∧ (endBounce b s).bne = { s.bne with engine := .idle, active := none } ∧
      (endBounce b s).tmc = { s.tmc with credit := 0 } ∧ (endBounce b s).mem = s.mem ∧ (endBounce b s).cyc = s.cyc ∧
      (endBounce b s).pse = s.pse ∧
      (∀ j, s.hears j .bounceEnded 1 = true → ∃ e ∈ ((endBounce b s).link j).events, e.info = s.info ∧
        e.body = .bounceEnded b.track b.count .commit none b.station b.done b.total b.peak b.clips (some (dest, d.serial))) ∧
      (b.owed = true → s.linkRuns b.station = true → ∃ r ∈ ((endBounce b s).link b.station).replies.getLast?,
        r.request = 0x11 ∧ r.tag = some b.tag ∧ r.completion = true ∧ r.code = .done ∧
          r.payload = .bounce b.peak b.clips (some (dest, d.serial))) := by
  have hre := commitStack_restacked hd hstack hnd hdest hs
  have honly := onlyStore_commitStack b dest s
  have hadds := adds_commitStack b dest s
  obtain ⟨ccyc, cpse, -, -, cbne, ctmc, -, cmem, -⟩ := honly.fields
  have hdestOf : (commitStack b dest s).destOf b = some (dest, d.serial) := by
    rw [State.destOf, hb, Option.map_some, hre.live]
    rfl
  have hover := bounceOver_over b none .done (some (dest, d.serial)) (commitStack b dest s)
  rw [endBounce_commit hb, hdestOf]
  generalize bounceOver b none .done (some (dest, d.serial)) (commitStack b dest s) = u at hover
  generalize commitStack b dest s = c at *
  have hlayer : ∀ k, u.layer k = c.layer k := State.layer_congr hover.lys
  have htrack : ∀ v, u.track v = c.track v := State.track_congr hover.lys
  refine ⟨⟨(htrack _).trans hre.track, fun v hv => (htrack v).trans (hre.tracks v hv), (hlayer _).trans hre.live,
    fun x hx => (hlayer _).trans (hre.sources x hx), fun id h1 h2 => (hlayer id).trans (hre.layers id h1 h2),
    by rw [hover.pgp, hre.free], by rw [hover.pgp, hre.reserved], by rw [hover.pgp, hre.pinnedTotal]⟩,
    by rw [hover.bne, cbne], by rw [hover.tmc, ctmc], hover.mem.trans cmem, hover.cyc.trans ccyc, hover.pse.trans cpse,
    fun j hh => ?_, fun ho hr => hover.replied ho ((honly.linkRuns b.station).trans hr)⟩
  obtain ⟨e, he, hinfo, hbody⟩ := hover.heard j (hadds.hears (m := 1) le_rfl hh)
  exact ⟨e, he, hinfo.trans (State.info_congr ccyc), by rw [hbody, hm]⟩

/-! ## The undo of a source -/

/-- What the undo of a source leaves: the bounce aborted, its pages returned, and the source parked (R62, R141). -/
structure UndoneSource (b : Bounce) (t : TrackId) (rest : List LayerId) (top : LayerId) (l : Layer) (s u : State) : Prop where
  bne : u.bne = { s.bne with engine := .idle, active := none }
  tmc : u.tmc = { s.tmc with credit := 0 }
  track : u.track t = { s.track t with stack := rest, redo := (s.track t).redo ++ [top] }
  layer : u.layer top = some { l with state := .parked, stamp := some s.lys.parks }
  kept : b.dest = none → u.pgp = s.pgp
  freed : ∀ dest d, b.dest = some dest → s.layer dest = some d → u.layer dest = none ∧
    u.pgp.free = s.pgp.free ++ d.map.map (·.2) ++ s.pgp.reserved ∧ u.pgp.reserved = []
  heard : ∀ j, s.hears j .bounceEnded 1 = true → ∃ e ∈ (u.link j).events, e.info = s.info ∧
    e.body = .bounceEnded b.track b.count b.mode (some .undo) b.station b.done b.total b.peak b.clips none
  replied : b.owed = true → s.linkRuns b.station = true → ∃ r ∈ (u.link b.station).replies,
    r.request = 0x11 ∧ r.tag = some b.tag ∧ r.completion = true ∧ r.code = .cancelled ∧
      r.payload = .bounce b.peak b.clips none
  runs : ∀ j, u.linkRuns j = s.linkRuns j

theorem abortBounce_parkLayer {b : Bounce} {t : TrackId} {rest : List LayerId} {top : LayerId} {l : Layer} {s : State}
    (hb : s.bne.active = some b) (hs : (s.track t).stack = rest ++ [top]) (hn : top ∉ rest) (hl : s.layer top = some l)
    (ht : l.track = t) (hp : s.lys.parks < 4294967295)
    (hd : ∀ dest d, b.dest = some dest → s.layer dest = some d →
      dest ∉ (s.track d.track).stack ∧ dest ∉ (s.track d.track).redo) :
    UndoneSource b t rest top l s (parkLayer top (abortBounce true .undo s)) := by
  have hret := returnBouncePages_returned hd
  have hover := bounceOver_over b (some .undo) .cancelled none (returnBouncePages true b s)
  rw [abortBounce_over hb]
  generalize bounceOver b (some .undo) .cancelled none (returnBouncePages true b s) = u at hover
  generalize returnBouncePages true b s = x at *
  obtain ⟨xcyc, -, -, -, xbne, xtmc, -⟩ := hret.only.fields
  have htop : b.dest ≠ some top := fun e => by
    obtain ⟨h, -⟩ := hd top l e hl
    exact h (by rw [ht, hs]; exact List.mem_append_right _ (List.mem_singleton.2 rfl))
  have ulayer : ∀ k, u.layer k = x.layer k := State.layer_congr hover.lys
  have utrack : ∀ v, u.track v = s.track v := fun v => (State.track_congr hover.lys v).trans (hret.track v)
  have uparks : u.lys.parks = s.lys.parks := by rw [hover.lys, hret.parks]
  have utop : u.layer top = some l := by rw [ulayer, hret.layer top htop, hl]
  have hpark := parkLayer_parked_one utop ht (by rw [uparks]; exact hp)
  have hlink : ∀ j, (parkLayer top u).link j = u.link j := fun j => by rw [hpark.only]; rfl
  have hne : ∀ dest, b.dest = some dest → dest ∉ [top] := fun dest e hm => htop (by rw [e, List.mem_singleton.1 hm])
  refine ⟨?_, ?_, ?_, ?_, fun e => ?_, fun dest d e h => ?_, fun j hh => ?_, fun ho hr => ?_, fun j => ?_⟩
  · rw [hpark.only]
    exact hover.bne.trans (by rw [xbne])
  · rw [hpark.only]
    exact hover.tmc.trans (by rw [xtmc])
  · rw [hpark.track, utrack, hs]
    have hrest : (rest ++ [top]).filter (· ∉ [top]) = rest := by
      rw [List.filter_append, List.filter_eq_self.2 fun k hk => by
        simpa using ne_of_mem_of_not_mem hk hn, List.filter_eq_nil_iff.2 (by simp), List.append_nil]
    rw [hrest]
  · have h0 := hpark.layer 0 Nat.zero_lt_one
    rw [List.getElem_cons_zero, utop, uparks] at h0
    exact h0
  · rw [hpark.only]
    exact hover.pgp.trans (hret.kept e)
  · obtain ⟨h1, h2, h3⟩ := hret.freed dest d e h
    refine ⟨by rw [hpark.layers dest (hne dest e), ulayer, h1], ?_, ?_⟩
    · rw [hpark.only]
      exact (congrArg Pgp.free hover.pgp).trans h2
    · rw [hpark.only]
      exact (congrArg Pgp.reserved hover.pgp).trans h3
  · obtain ⟨e, he, hinfo, hbody⟩ := hover.heard j (hret.adds.hears (m := 1) le_rfl hh)
    exact ⟨e, by rw [hlink]; exact he, hinfo.trans (State.info_congr xcyc), hbody⟩
  · obtain ⟨r, hr, h⟩ := hover.replied ho ((hret.only.linkRuns b.station).trans hr)
    exact ⟨r, by rw [hlink]; exact List.mem_of_getLast? hr, h⟩
  · rw [State.linkRuns, hlink]
    exact (hover.runs j).trans (hret.only.linkRuns j)

/-- Settles O47: the strokes by `exec_scanStroke` and `exec_commitStroke`, the sum by `bounceSum_getD`, the ends by
`bounceOver_over`, `commitStack_restacked` and `returnBouncePages_returned`. -/
theorem strokeOfAScanCompletes : Obligations.StrokeOfAScanCompletes := by
  refine ⟨?_, fun s sources pos f hf => ?_, ?_, fun s b n cost hstop he hb hm hd hs hsus hc hmore => ?_, ?_⟩
  · intro s b n cost k l hstop he hb hm hd hs hk hl hsus len span sums done buffer
    have hdone : done = b.advanced sums := (b.advanced_eq sums).symm
    have hpaid : strokePaid cost sums s =
        (s.withTmc { s.tmc with credit := s.tmc.credit - cost }).withBne { s.bne with buffer := buffer } := by
      rw [strokePaid, show sums.length = span by simp only [sums, List.length_map, List.length_range]]
    have hexec : cost ≤ s.tmc.credit → exec .bounceStrokeComplete s = .next (afterStroke done len
        ((s.withTmc { s.tmc with credit := s.tmc.credit - cost }).withBne { s.bne with buffer := buffer })) := fun hc => by
      rw [exec_scanStroke hstop he hb hd hs hc, State.trackLen_of_some hk hl, hdone, ← hpaid]
      rfl
    have hmode : done.mode = .scan := hm
    have hsus' : done.suspendPending = false := hsus
    have hdest : done.dest = none := hd
    have hdone1 : done.done = b.done + 1 := rfl
    have hcount : done.count = b.count := rfl
    have htotal : done.total = b.total := rfl
    have howed : done.owed = b.owed := rfl
    have hwho : done.track = b.track ∧ done.station = b.station ∧ done.tag = b.tag := ⟨rfl, rfl, rfl⟩
    clear_value done buffer sums
    refine ⟨fun hc => exec_stroke_unpaid hstop he hb hs hc, fun hc hmore => ?_, fun hc hlast ho => ?_⟩
    · rw [hexec hc, afterStroke_of_more (by rw [hdone1, htotal]; exact hmore), hsus', if_neg (by decide), hmode,
        strokeCost_scan, hcount, hdone1]
      rfl
    · obtain ⟨h1, h2, h3⟩ := hwho
      rw [hexec hc, afterStroke_of_last (by rw [hdone1, htotal]; exact hlast), ← h1, ← h2, ← h3, ← hcount, ← htotal]
      have hend := endBounce_scan hdest (howed.trans ho) hmode s { s.bne with buffer := buffer, active := some done }
        { s.tmc with credit := s.tmc.credit - cost }
      exact congrArg Host.Outcome.next hend
  · rw [bounceSum_getD s sources pos hf]
    refine congrArg List.sum (List.map_congr_left fun x _ => ?_)
    cases s.layer x.layer with
    | none => rfl
    | some l => exact if_congr decide_eq_true_iff rfl rfl
  · intro s b n cost k l dest d pg reserved map hstop he hb hm hdest hs hk hl hd hc hn htaken len span sums done buffer mem
      written next
    have hexec := exec_commitStroke hstop he hb hdest hs hk hl hd hc hn htaken
    have hdone : done = b.advanced sums := (b.advanced_eq sums).symm
    have hpaid : strokePaid cost sums s =
        (s.withTmc { s.tmc with credit := s.tmc.credit - cost }).withBne { s.bne with buffer := buffer } := by
      rw [strokePaid, show sums.length = span by simp only [sums, List.length_map, List.length_range]]
    have hexec' : exec .bounceStrokeComplete s =
        .next (afterStroke done len (strokeWritten cost sums dest reserved written mem s)) := by
      rw [hdone]
      exact hexec
    have hnext : ∀ (e : Engine) (x : Bounce), (strokeWritten cost sums dest reserved written mem s).withBne
        { s.bne with engine := e, buffer := buffer, active := some x } = next e x := by
      intro e x
      rw [strokeWritten, hpaid]
      rfl
    have hbne : (strokeWritten cost sums dest reserved written mem s).bne = { s.bne with buffer := buffer } := by
      rw [strokeWritten, hpaid]
      rfl
    refine ⟨slotTaken.ascending htaken, fun hmore hsus => ?_, fun hmore hsus => ?_, fun above hlast hstack hnd hnot hsrc => ?_⟩
    · rw [hexec', afterStroke_of_more hmore, if_neg (by rw [show done.suspendPending = false from hsus]; decide), hbne,
        show strokeCost done.mode done.count len done.done = (b.count + 1) * min 32 (len - 32 * (b.done + 1)) by
          rw [show done.mode = .commit from hm]
          exact strokeCost_commit .., ← hnext]
    · rw [hexec', afterStroke_of_more hmore, if_pos (show done.suspendPending = true from hsus), hbne, ← hnext]
    · have hlys : (strokeWritten cost sums dest reserved written mem s).lys = (s.withLayer dest (some written)).lys := rfl
      have hfields : done.mode = .commit ∧ done.dest = some dest := ⟨hm, hdest⟩
      obtain ⟨dmode, ddest⟩ := hfields
      rw [hexec', afterStroke_of_last hlast, hbne]
      set x := (strokeWritten cost sums dest reserved written mem s).withBne
        { s.bne with buffer := buffer, active := some done } with hx
      have xtrack : ∀ v, x.track v = s.track v := State.track_congr (u := x) (s := s.withLayer dest (some written)) hlys
      have xlayer : ∀ id, x.layer id = if id = dest then some written else s.layer id := fun id =>
        (State.layer_congr (u := x) (s := s.withLayer dest (some written)) hlys id).trans (State.withLayer_layer ..)
      have hne : ∀ y ∈ b.sources, y.layer ≠ dest := fun y hy =>
        ne_of_mem_of_not_mem (hstack ▸ List.mem_append_left _ (List.mem_map.2 ⟨y, hy, rfl⟩)) hnot
      obtain ⟨hre, ubne, utmc, umem, ucyc, upse, uevents, ureply⟩ := endBounce_restacked (b := done) (d := written)
        (above := above) (s := x) ddest dmode ((xlayer dest).trans (if_pos rfl)) (by rw [xtrack]; exact hstack)
        (by rw [xtrack]; exact hnd) (by rw [xtrack]; exact hnot) fun y hy => by
          obtain ⟨h1, z, hz, h2, h3⟩ := hsrc y hy
          rw [xtrack]
          exact ⟨h1, z, by rw [xlayer, if_neg (hne y hy)]; exact hz, h2, h3⟩
      refine ⟨endBounce done x, rfl, ubne, utmc, umem, ?_, fun v hv => ?_, hre.live, hre.sources, fun id h1 h2 => ?_, ?_,
        hre.reserved, hre.pinnedTotal, ucyc, upse, uevents, ureply⟩
      · exact hre.track.trans (by rw [xtrack])
      · rw [hre.tracks v hv, xtrack]
      · rw [hre.layers id h1 h2, xlayer, if_neg h1]
      · refine hre.free.trans (congrArg (s.pgp.free ++ ·) (List.flatMap_congr fun y hy => ?_))
        rw [State.pagesOf, xlayer, if_neg (hne y hy)]
  · have hexec := exec_scanStroke hstop he hb hd hs hc
    dsimp only at hexec
    rw [afterStroke_of_more (b := b.advanced _) hmore, if_pos (show (b.advanced _).suspendPending = true from hsus)] at hexec
    exact ⟨_, _, hexec, rfl, rfl, rfl, rfl, rfl, rfl, rfl, rfl⟩
  · intro s lk tag track quantize mode t b rest top l h hold ht hq hn hm hpass hs hnot hl hlt hredo hparks hb hsrc hdest
    have hacc : Accepted s lk tag (.layerUndo lk tag track quantize) (.layerUndo t) mode :=
      ⟨h, hold, by simp only [quantizedOf, ht, hq], hn, rfl⟩
    have htime : s.timing lk (.layerUndo t) mode = .atOnce 0 := State.timing_onTrack rfl (fun _ _ e => by cases e) hm
    obtain ⟨xtrack, xlayer, -, xpass⟩ := taken_reads lk true s
    obtain ⟨xcyc, xlys, xpgp, -, -, -, xbne, xtmc, -⟩ := taken_fields lk true s
    have xadds : adds 0 (fun _ => True) s (taken lk true s) := adds_taken (fun _ => trivial) lk true s
    have xnew : (taken lk true s).newestPass t = none :=
      (newestPass_none _ t).2 fun i p hp => (newestPass_none s t).1 hpass i p ((xpass i).symm.trans hp)
    have hexec := execUndo_of_source xnew (by rw [xtrack]; exact hs) (by rw [xtrack]; exact hredo)
      (by rw [taken_isSource]; exact hsrc)
    have hundone := abortBounce_parkLayer (s := taken lk true s) (b := b) (by rw [xbne]; exact hb)
      (by rw [xtrack]; exact hs) hnot ((xlayer top).trans hl) hlt (by rw [xlys]; exact hparks)
      (by simpa only [xtrack, xlayer] using hdest)
    have hserved := exec_atOnce (f := fun x => parkLayer top (abortBounce true .undo x)) hacc htime hexec
    have hreply := served_getLast (s := s) (lk := lk) (code := 0x08) (tag := tag) (rc := .done)
      (f := fun x => parkLayer top (abortBounce true .undo x)) (p := .none)
      ((hundone.runs lk).trans ((taken_linkRuns lk lk true s).trans (State.ready_linkRuns h)))
    have hu : (s.served lk 0x08 tag .done fun x => parkLayer top (abortBounce true .undo x)) =
        pushReply lk (s.firstReplyOf 0x08 tag .done .none) (parkLayer top (abortBounce true .undo (taken lk true s))) := rfl
    rw [hu] at hreply
    replace hserved := hserved.trans (congrArg Host.Outcome.next hu)
    generalize parkLayer top (abortBounce true .undo (taken lk true s)) = m at *
    obtain ⟨-, ulys, upgp, -, -, -, ubne, utmc, -⟩ := pushReply_fields lk (s.firstReplyOf 0x08 tag .done .none) m
    have uevents := pushReply_events lk (s.firstReplyOf 0x08 tag .done .none) m
    refine ⟨_, hserved, ?_, ?_, ?_, ?_, fun e => ?_, fun dest d e hd => ?_, fun j hh => ?_, fun ho hr => ?_,
      _, hreply, rfl, rfl, rfl⟩
    · rw [ubne, hundone.bne, xbne]
    · rw [utmc, hundone.tmc, xtmc]
    · rw [State.track_congr ulys, hundone.track, xtrack]
    · rw [State.layer_congr ulys, hundone.layer, xlys]
    · rw [upgp, hundone.kept e, xpgp]
    · obtain ⟨h1, h2, h3⟩ := hundone.freed dest d e ((xlayer dest).trans hd)
      exact ⟨by rw [State.layer_congr ulys, h1], by rw [upgp, h2, xpgp], by rw [upgp, h3]⟩
    · obtain ⟨e, he, hinfo, hbody⟩ := hundone.heard j (xadds.hears (m := 0) (by simp) (by simpa using hh))
      exact ⟨e, by rw [uevents]; exact he, hinfo.trans (State.info_congr xcyc), hbody⟩
    · obtain ⟨r, hmem, hr⟩ := hundone.replied ho ((taken_linkRuns lk b.station true s).trans hr)
      exact ⟨r, pushReply_mem hmem, hr⟩

end Sys2Proof.Machine
end
